-- ==== Sys2Proof/Word.lean ====
section
/-!
DEFINITION. The words of the block: bytes, the 16-bit CRC width, 32-bit registers and addresses, the 11-bit
transaction descriptor, and what the host puts on its port (30_encoding R47).
-/
namespace Sys2Proof

/-- One memory byte, and the DATA field of a command word (R50). -/
abbrev Byte := BitVec 8

/-- The CRC width, and the LEN count of a command word (R8: `CRC_W`, `LEN_W`). -/
abbrev Half := BitVec 16

/-- A host register, a command word or a memory address (R9: `AW` = 32). -/
abbrev Word := BitVec 32

/-- A host transaction's descriptor: DIR, SIZE, OFF (R55). -/
abbrev Desc := BitVec 11

/-- The raw form of what the host issues (R47): a transaction named by its descriptor, with the write data
(ignored by a read), or a command word written to CMD. -/
inductive Request where
  | access (t : Desc) (wdata : Word)
  | command (w : Word)
  deriving DecidableEq, Repr

end Sys2Proof
end

