-- ==== Sys2Proof/Config.lean ====
section
/-!
DEFINITION. The fixed constants (R8, R60), the platform's parameter `CRC_BASE` (R39), and the free values: opaque
constants with no body, one for each value the spec calls unspecified.
-/
namespace Sys2Proof

/-- The feedback polynomial's low 16 coefficients (R60). -/
def Config.poly : Half := 0x5935

/-- The CRC's initial value (R60). -/
def Config.crcInit : Half := 0xFFFF

/-- The checksummed length of the Link Setup Frame, `LSF_LEN` (R8). -/
def Config.lsfLen : Half := 28

/-- The base address of the host register window, the platform's (R39, 93 S5). No body: nothing depends on its value.
DESIGN CHOICE (log 20): R39 and D3 give it no width, and the model makes it 32 bits wide. -/
opaque Config.crcBase : Word

/-- FREE VALUE (log 10): the low half of a CRC read while BUSY = 1 (R88), by draw number. -/
opaque Config.freeCrcRead : Nat → Half

/-- FREE VALUE (log 10): CRC after a memory error (R84), by draw number. -/
opaque Config.freeCrcAfterError : Nat → Half

/-- FREE VALUE (log 10): PTR after a memory error (R84), by draw number. -/
opaque Config.freePtrAfterError : Nat → Word

/-- FREE VALUE (log 11): what a host-script name holds before any `rd` binds it (R57 states no value). -/
opaque Config.freeName : Nat → Word

end Sys2Proof
end

