-- ==== Sys2Proof/Machine/Crc.lean ====
section
/-!
DEFINITION. The CRC-16 datapath (40_crc_function): the source's 32-bit algorithm (R61), its 17-bit bit step (R62), and
the 16-bit form the block uses (R64 to R66). A byte sequence is a list; its length is the rules' n.
-/
namespace Sys2Proof.Machine

/-- The source's bit step, with the transient bit 16 (R16, R62). -/
def bitstepSrc (c : Half) : Half :=
  let a : BitVec 17 := c.setWidth 17 <<< 1
  if a.getLsbD 16 then (a ^^^ 0x5935).setWidth 16 else a.setWidth 16

/-- The bit step, 16-bit form (R64). -/
def bitstep (c : Half) : Half :=
  c <<< 1 ^^^ (if c.getLsbD 15 then Config.poly else 0)

/-- `n` bit steps. -/
def bitsteps : Nat → Half → Half
  | 0, c => c
  | n + 1, c => bitsteps n (bitstep c)

/-- The byte step (R65). -/
def step8 (c : Half) (b : Byte) : Half :=
  bitsteps 8 (c ^^^ b.setWidth 16 <<< 8)

/-- The CRC of a byte sequence from any value (R66: `crc16_from`). -/
def crc16From (c : Half) : List Byte → Half
  | [] => c
  | b :: bs => crc16From (step8 c b) bs

/-- The CRC of a byte sequence (R66). -/
def crc16 (buf : List Byte) : Half :=
  crc16From Config.crcInit buf

/-- One iteration of the source's step 2b, on the 32-bit accumulator (R61). -/
def accBit (acc : Word) : Word :=
  let a := acc <<< 1
  if a &&& 0x10000 ≠ 0 then (a ^^^ 0x5935) &&& 0xFFFF else a

/-- `n` iterations of step 2b. -/
def accBits : Nat → Word → Word
  | 0, acc => acc
  | n + 1, acc => accBits n (accBit acc)

/-- Step 2 for one byte (R61). -/
def accByte (acc : Word) (b : Byte) : Word :=
  accBits 8 (acc ^^^ b.setWidth 32 <<< 8)

/-- Step 2 for a byte sequence (R61). -/
def accBytes (acc : Word) : List Byte → Word
  | [] => acc
  | b :: bs => accBytes (accByte acc b) bs

/-- The source's algorithm (R61). -/
def crc16Src (buf : List Byte) : Half :=
  (accBytes 0x0000FFFF buf &&& 0xFFFF).setWidth 16

end Sys2Proof.Machine
end

