-- ==== Sys2Proof/Syntax.lean ====
section
/-!
DEFINITION. The instructions: one constructor per row of spec/opcode_table.json.
-/
namespace Sys2Proof

/-- The operations the block executes, all issued by the host (R47): the four commands (R52) and the eight
admitted host transactions (R55). A command constructor stands for the CMD write that carries that command's word
(R75, R91); a `wr` constructor carries the write data. -/
inductive Instr where
  /-- INIT (R76) -/
  | init
  /-- FEED of one byte (R77) -/
  | feed (data : Byte)
  /-- BUF over `len` bytes at ADDR (R79) -/
  | buf (len : Half)
  /-- LSF: the 28-byte prefix at ADDR (R81) -/
  | lsf
  /-- RD.CRC (R88) -/
  | rdCrc
  /-- WR.CRC (R93) -/
  | wrCrc (w : Word)
  /-- RD.ADDR (R89) -/
  | rdAddr
  /-- WR.ADDR (R89) -/
  | wrAddr (w : Word)
  /-- RD.CMD (R93) -/
  | rdCmd
  /-- WR.CMD (R91) -/
  | wrCmd (w : Word)
  /-- RD.STATUS (R90) -/
  | rdStatus
  /-- WR.STATUS (R92) -/
  | wrStatus (w : Word)
  deriving DecidableEq, Repr

end Sys2Proof
end

