-- ==== Sys2Proof/WellFormed.lean ====
section
/-!
DEFINITION. Which raw words are well formed, by the masks of R52 and R55 (the decoder is written from the fields
instead). An `Instr` needs no check of its own: each operand is a bit vector of its field's width.
-/
namespace Sys2Proof

/-- OP is one of the four operations (R52). -/
def commandOpOk (w : Word) : Bool :=
  w &&& 0x0000000F == 1 || w &&& 0x0000000F == 2 || w &&& 0x0000000F == 3 || w &&& 0x0000000F == 4

/-- RSV is zero (R50). -/
def commandRsvOk (w : Word) : Bool :=
  w &&& 0x000000F0 == 0

/-- DATA is zero unless the operation is FEED (R50). -/
def commandDataOk (w : Word) : Bool :=
  w &&& 0x0000000F == 2 || w &&& 0x0000FF00 == 0

/-- LEN is zero unless the operation is BUF (R50). -/
def commandLenOk (w : Word) : Bool :=
  w &&& 0x0000000F == 3 || w &&& 0xFFFF0000 == 0

/-- A command word that selects a command (R52). -/
def commandWordOk (w : Word) : Bool :=
  commandOpOk w && commandRsvOk w && commandDataOk w && commandLenOk w

/-- SIZE is 0b10, four bytes (R55, R94). -/
def descSizeOk (t : Desc) : Bool :=
  t &&& 0x300 == 0x200

/-- OFF is a multiple of 4 (R55, R94). -/
def descAlignOk (t : Desc) : Bool :=
  t &&& 0x003 == 0

/-- OFF is below 0x10 (R55, R94). -/
def descOffsetOk (t : Desc) : Bool :=
  t &&& 0x0F0 == 0

/-- An admitted descriptor (R55). -/
def descOk (t : Desc) : Bool :=
  descSizeOk t && descAlignOk t && descOffsetOk t

/-- What the host issues is admitted: no bus error and no illegal command word. -/
def requestOk : Request → Bool
  | .access t _ => descOk t
  | .command w => commandWordOk w

end Sys2Proof
end

