-- ==== Sys2Proof/Decode.lean ====
section
/-!
DEFINITION. The decoder of command words (R50 to R53) and of host transaction descriptors (R55), total and
rejecting by name, and the encoder written from the same tables.
-/
namespace Sys2Proof

/-- What a command word selects (R53: Command). -/
inductive Command where
  | init
  | feed (data : Byte)
  | buf (len : Half)
  | lsf
  deriving DecidableEq, Repr

/-- Why a command word is Illegal (R53, R54). Each of them sets ERR_CMD (R98). -/
inductive CommandError where
  /-- RSV is not zero. -/
  | reservedField
  /-- OP is 0x0 or 0x5 to 0xF. -/
  | unknownOp
  /-- DATA or LEN is not zero in a command that does not use it. -/
  | unusedField
  deriving DecidableEq, Repr

/-- Why a host transaction gets a bus error (R94). -/
inductive AccessError where
  /-- SIZE is 1 or 2 bytes. -/
  | wrongSize
  /-- SIZE is the reserved 0b11. -/
  | reservedSize
  /-- OFF is not a multiple of 4. -/
  | misaligned
  /-- OFF is 0x10 to 0xFF. -/
  | reservedOffset
  deriving DecidableEq, Repr

/-- OP = w[3:0] (R51). -/
def opField (w : Word) : BitVec 4 := w.extractLsb' 0 4

/-- RSV = w[7:4] (R51). -/
def rsvField (w : Word) : BitVec 4 := w.extractLsb' 4 4

/-- DATA = w[15:8] (R51). -/
def dataField (w : Word) : Byte := w.extractLsb' 8 8

/-- LEN = w[31:16] (R51). -/
def lenField (w : Word) : Half := w.extractLsb' 16 16

/-- DIR is bit 10: 1 for a write (R55). -/
def descWrites (t : Desc) : Bool := t.getLsbD 10

/-- SIZE is bits 9:8 (R55). -/
def descSize (t : Desc) : BitVec 2 := t.extractLsb' 8 2

/-- OFF is bits 7:0 (R55). -/
def descOff (t : Desc) : BitVec 8 := t.extractLsb' 0 8

/-- The decode function of R53. -/
def decodeCommand (w : Word) : Except CommandError Command :=
  if rsvField w ≠ 0 then .error .reservedField
  else if opField w = 1 then
    if dataField w = 0 ∧ lenField w = 0 then .ok .init else .error .unusedField
  else if opField w = 2 then
    if lenField w = 0 then .ok (.feed (dataField w)) else .error .unusedField
  else if opField w = 3 then
    if dataField w = 0 then .ok (.buf (lenField w)) else .error .unusedField
  else if opField w = 4 then
    if dataField w = 0 ∧ lenField w = 0 then .ok .lsf else .error .unusedField
  else .error .unknownOp

/-- The transaction at an admitted offset: read or write (R55). -/
def decodeRegister (write : Bool) (off : BitVec 8) (wdata : Word) : Except AccessError Instr :=
  if off = 0x00 then .ok (if write then .wrCrc wdata else .rdCrc)
  else if off = 0x04 then .ok (if write then .wrAddr wdata else .rdAddr)
  else if off = 0x08 then .ok (if write then .wrCmd wdata else .rdCmd)
  else if off = 0x0C then .ok (if write then .wrStatus wdata else .rdStatus)
  else .error .reservedOffset

/-- The decoder of host transactions (R55, R94). -/
def decodeAccess (t : Desc) (wdata : Word) : Except AccessError Instr :=
  if descSize t = 3 then .error .reservedSize
  else if descSize t ≠ 2 then .error .wrongSize
  else if (descOff t).extractLsb' 0 2 ≠ 0 then .error .misaligned
  else decodeRegister (descWrites t) (descOff t) wdata

/-- A command as an instruction. -/
def commandInstr : Command → Instr
  | .init => .init
  | .feed d => .feed d
  | .buf n => .buf n
  | .lsf => .lsf

/-- What the block executes for a request (R47): a legal command word is its command; an illegal one is still the
CMD write that carries it, which sets ERR_CMD (R54, R91); a descriptor that is not admitted is rejected (R94). -/
def decode : Request → Except AccessError Instr
  | .access t wdata => decodeAccess t wdata
  | .command w =>
    match decodeCommand w with
    | .ok c => .ok (commandInstr c)
    | .error _ => .ok (.wrCmd w)

/-- A command word from its fields: LEN from bit 16, DATA from bit 8, RSV from bit 4, OP from bit 0 (R50). -/
def packCommand (len : Half) (data : Byte) (rsv op : BitVec 4) : Word :=
  len.setWidth 32 <<< 16 ||| data.setWidth 32 <<< 8 ||| rsv.setWidth 32 <<< 4 ||| op.setWidth 32

/-- The word of a command (R52). -/
def encodeCommand : Command → Word
  | .init => packCommand 0 0 0 1
  | .feed d => packCommand 0 d 0 2
  | .buf n => packCommand n 0 0 3
  | .lsf => packCommand 0 0 0 4

/-- A descriptor from its fields: DIR in bit 10, SIZE from bit 8, OFF from bit 0 (R55). -/
def packFields (write : Bool) (size : BitVec 2) (off : BitVec 8) : Desc :=
  (BitVec.ofBool write).setWidth 11 <<< 10 ||| size.setWidth 11 <<< 8 ||| off.setWidth 11

/-- The descriptor of a four-byte access (R55). -/
def packDesc (write : Bool) (off : BitVec 8) : Desc :=
  packFields write 0b10 off

/-- The encoder: what the host issues for an instruction (R52, R55). -/
def encode : Instr → Request
  | .init => .command (encodeCommand .init)
  | .feed d => .command (encodeCommand (.feed d))
  | .buf n => .command (encodeCommand (.buf n))
  | .lsf => .command (encodeCommand .lsf)
  | .rdCrc => .access (packDesc false 0x00) 0
  | .wrCrc w => .access (packDesc true 0x00) w
  | .rdAddr => .access (packDesc false 0x04) 0
  | .wrAddr w => .access (packDesc true 0x04) w
  | .rdCmd => .access (packDesc false 0x08) 0
  | .wrCmd w => .access (packDesc true 0x08) w
  | .rdStatus => .access (packDesc false 0x0C) 0
  | .wrStatus w => .access (packDesc true 0x0C) w

/-- The request whose bits are `w` as spec/opcode_table.json numbers them: a row of at most 16 bits is a descriptor
(11 bits; write data zero), a longer row a command word. Bits the row does not have make it a request that nothing
decodes: the reserved descriptor 0x7FF, the illegal word 0. -/
def tableRequest (nbits w : Nat) : Request :=
  if nbits ≤ 16 then
    .access (if w < 2 ^ 11 then BitVec.ofNat 11 w else 0x7FF) 0
  else
    .command (if w < 2 ^ 32 then BitVec.ofNat 32 w else 0)

/-- The instruction the decoder reads from a table word; none where it rejects, an illegal command word included. -/
def decodeTableWord (nbits w : Nat) : Option Instr :=
  match tableRequest nbits w with
  | .access t wdata => (decodeAccess t wdata).toOption
  | .command c => (decodeCommand c).toOption.map commandInstr

end Sys2Proof
end

