-- ==== Sys2Proof/Machine/State.lean ====
section
/-!
DEFINITION. The state of one instance (R26) with the environment its rules act on (memory, host, schedule), as plain
data; the reasons a step can stop; the state after reset (R27, R111).
-/
namespace Sys2Proof.Machine

/-- The sticky STATUS errors (R97). -/
inductive ErrorCode where
  | cmd
  | busy
  | mem
  deriving DecidableEq, Repr

/-- A host transaction's response (R87). The third one, `buserr`, is the fault `hostBusError`. -/
inductive Response where
  /-- a read's `okay` with its data -/
  | data (d : Word)
  /-- a write's `okay` -/
  | okay
  deriving DecidableEq, Repr

/-- What the memory answers to `MemRead(a, 1)`: R32, and the memory that never answers of R122 (93 S9). -/
inductive MemAnswer where
  | ok (b : Byte)
  | err
  | never
  deriving DecidableEq, Repr

/-- One statement of a host script in its executable form (R57): a request, with the name that `rd` binds, or the
host-side branch `bnz name & mask, target` with its label resolved to a position. -/
inductive Stmt where
  | issue (r : Request) (dst : Option Nat)
  | bnz (name : Nat) (mask : Word) (target : Nat)
  deriving DecidableEq, Repr

/-- What can come next in the total order of transitions (R40, R104). -/
inductive Event where
  /-- HOST executes its next statement. -/
  | host
  /-- ENGINE takes its step (R83). -/
  | engine
  /-- reset (R111) -/
  | reset
  /-- a write by an agent other than the engine reaches the memory (R42) -/
  | store (a : Word) (b : Byte)
  /-- the host issues a store that is not yet at the memory (R43, R119) -/
  | post (a : Word) (b : Byte)
  /-- the oldest such store reaches the memory (R41) -/
  | drain
  deriving DecidableEq, Repr

/-- The state. The first seven fields are the block's (R26); BUSY is `rem ≠ 0` (R25). -/
structure State where
  /-- CRC (R14, R20) -/
  crc : Half
  /-- ADDR (R21) -/
  addr : Word
  /-- STATUS.ERR_CMD (R23) -/
  errCmd : Bool
  /-- STATUS.ERR_BUSY (R23) -/
  errBusy : Bool
  /-- STATUS.ERR_MEM (R23) -/
  errMem : Bool
  /-- PTR, hidden (R24) -/
  ptr : Word
  /-- REM, hidden (R24) -/
  rem : Half
  /-- host port: the latest transaction's response (R87) -/
  response : Option Response
  /-- memory: the readable bytes (R29), in canonical form -/
  mem : List Host.Cell
  /-- memory: the addresses whose reads are never answered (R122) -/
  silent : List Word
  /-- host stores not yet at the memory, oldest first (R119) -/
  pending : List (Word × Byte)
  /-- HOST: its script (R57) -/
  script : List Stmt
  /-- HOST: the position of its next statement -/
  hostPc : Nat
  /-- HOST: the names bound by `rd`, latest first (R57) -/
  names : List (Nat × Word)
  /-- the model's own: the events to come (R121) -/
  sched : List Event
  /-- the model's own: where the last buffer command's window starts (R12, R33) -/
  winBase : Word
  /-- the model's own: how many bytes that window has (R12, R33) -/
  winLen : Half
  /-- the model's own: the addresses the engine has read, latest first (R33) -/
  reads : List Word
  /-- the model's own: the run recorded ERR_MEM and is marked faulted (R100, R123) -/
  memFaulted : Bool
  /-- the model's own: how many free values have been drawn -/
  draws : Nat
  deriving DecidableEq, Repr

/-- Why the machine stops. Both are faults the spec tells a model to raise (R97). -/
inductive Fault where
  /-- The host issued a transaction that is not admitted (R94, R101). Raised by HOST's turn. SAFE: the block goes on
  with no state changed; the model stops. -/
  | hostBusError
  /-- A write by an agent other than the engine met a window byte of a running command (R42, R102, R118), or a host
  store to a window byte was not yet at the memory at the CMD write (R119). Raised by a store reaching the memory or
  posted while BUSY = 1, by BUF, LSF and the CMD write that carries one, and by ENGINE's turn. SAFE: the block goes on
  with some byte; the model stops. -/
  | bufferRace
  deriving DecidableEq, Repr

/-- Why the model gives no meaning. -/
inductive Refusal where
  /-- The instruction has no meaning yet. Raised by an arm of `exec` only; no arm does. SAFE. -/
  | notModelled (mnemonic : String)
  deriving DecidableEq, Repr

/-- The three outcomes of a step of this machine. -/
abbrev Result := Host.Outcome State Fault Refusal

/-- The machine right after reset (R27, R111, R113): idle, nothing in memory, no host script, nothing scheduled. -/
def State.reset : State where
  crc := 0xFFFF
  addr := 0
  errCmd := false
  errBusy := false
  errMem := false
  ptr := 0
  rem := 0
  response := none
  mem := []
  silent := []
  pending := []
  script := []
  hostPc := 0
  names := []
  sched := []
  winBase := 0
  winLen := 0
  reads := []
  memFaulted := false
  draws := 0

end Sys2Proof.Machine
end

