-- ==== Sys2Proof/Machine/Flags.lean ====
section
/-!
DEFINITION. STATUS: its bits (R23), its word (R90), the codes of its errors (R97), write-1-to-clear (R92).
-/
namespace Sys2Proof.Machine

/-- STATUS.BUSY, derived from REM (R25). -/
def State.busy (s : State) : Bool :=
  s.rem != 0

/-- The STATUS word a host reads: ERR_MEM, ERR_BUSY, ERR_CMD, BUSY in bits 3 to 0 (R90). -/
def State.statusWord (s : State) : Word :=
  (BitVec.ofBool s.errMem).setWidth 32 <<< 3 ||| (BitVec.ofBool s.errBusy).setWidth 32 <<< 2 |||
    (BitVec.ofBool s.errCmd).setWidth 32 <<< 1 ||| (BitVec.ofBool s.busy).setWidth 32

/-- An error's code, which is its STATUS bit (R97). -/
def errorCode : ErrorCode → Nat
  | .cmd => 1
  | .busy => 2
  | .mem => 3

/-- A sticky bit after `w` is written to STATUS: cleared where `w` has a 1 in its place (R92). -/
def stickyAfter (w : Word) (e : ErrorCode) (old : Bool) : Bool :=
  old && !w.getLsbD (errorCode e)

end Sys2Proof.Machine
end

