-- ==== Sys2Proof/Machine/Operands.lean ====
section
/-!
DEFINITION. The operands: the base address and count of a buffer command, the addresses of a window (R33, R34), the
memory key of an address, a transaction's place in the register window (R28, R55), a host name's value (R57).
The fields of a command word are in Decode.lean (R51).
-/
namespace Sys2Proof.Machine

/-- The base address of BUF and LSF: ADDR at the time of the write (R79, R81). -/
def State.bufferBase (s : State) : Word :=
  s.addr

/-- Byte `i` of a window, modulo 2^32 (R33, R34). -/
def windowAddr (base : Word) (i : Nat) : Word :=
  base + BitVec.ofNat 32 i

/-- The address after `a`, modulo 2^32 (R34). -/
def nextAddr (a : Word) : Word :=
  a + 1

/-- The memory's key of an address. -/
def memKey (a : Word) : Nat :=
  a.toNat

/-- Whether `a` is one of the `n` bytes of the window at `base` (R12, R33). -/
def isWindowByte (base : Word) (n : Half) (a : Word) : Bool :=
  decide ((a - base).toNat < n.toNat)

/-- The descriptor of a host access at bus address `a`, by its offset from `CRC_BASE` (R28, R39, R55). DESIGN CHOICE
(log 20): the spec gives the host bus address no width (R9's `AW` is the memory port's), and the model takes 32 bits and
the offset modulo 2^32; an access outside the 256-byte window has no descriptor. -/
def accessDesc (write : Bool) (size : BitVec 2) (a : Word) : Option Desc :=
  if (a - Config.crcBase).toNat < 256 then
    some (packFields write size ((a - Config.crcBase).setWidth 8))
  else none

/-- What a list of bindings gives a name: its latest binding, or a free value (log 11). -/
def nameIn (v : Nat) : List (Nat × Word) → Word
  | [] => Config.freeName v
  | (u, d) :: rest => if u = v then d else nameIn v rest

/-- The value of a host-script name (R57). -/
def State.nameValue (s : State) (v : Nat) : Word :=
  nameIn v s.names

end Sys2Proof.Machine
end

