-- ==== Sys2Proof/Machine/Ops.lean ====
section
/-!
DEFINITION. The named operations the meanings are built from: memory, the host port, recording and clearing an error
(the block's only exceptions, R96), the working register and window, the host agent, reset.
-/
namespace Sys2Proof.Machine

/-- The byte listed at a key; none where no byte is listed, and the memory then answers `err` (log 1). -/
def Memory.read : List Host.Cell → Nat → Option Byte
  | [], _ => none
  | (k, v) :: rest, a => if k = a then some v else Memory.read rest a

/-- The memory with byte `b` at key `a`, in canonical form. -/
def Memory.write : List Host.Cell → Nat → Byte → List Host.Cell
  | [], a, b => [(a, b)]
  | (k, v) :: rest, a, b =>
    if a < k then (a, b) :: (k, v) :: rest
    else if a = k then (a, b) :: rest
    else (k, v) :: Memory.write rest a b

/-- The canonical form: addresses strictly rising, each below 2^32 (R28). -/
abbrev Memory.wf (m : List Host.Cell) : Prop :=
  m.Pairwise (fun x y => x.1 < y.1) ∧ ∀ c ∈ m, c.1 < 2 ^ 32

/-- `MemRead(a, 1)` (R32). -/
def State.memRead (s : State) (a : Word) : MemAnswer :=
  if a ∈ s.silent then .never
  else match Memory.read s.mem (memKey a) with
    | some b => .ok b
    | none => .err

/-- Whether a host store to `a` has been issued and is not yet at the memory (R119). -/
def State.storePending (s : State) (a : Word) : Bool :=
  s.pending.any (fun p => p.1 == a)

/-- Whether a host store to one of the `n` bytes from `base` on is not yet at the memory (R119). -/
def State.storeOnWay (s : State) (base : Word) (n : Half) : Bool :=
  s.pending.any (fun p => isWindowByte base n p.1)

/-- Whether `a` is a window byte of the running command (R12, R42, R118). -/
def State.inWindow (s : State) (a : Word) : Bool :=
  s.busy && isWindowByte s.winBase s.winLen a

/-- The memory write of `storeArrives`. -/
def State.writeByte (s : State) (a : Word) (b : Byte) : State :=
  { s with mem := Memory.write s.mem (memKey a) b }

/-- A write by an agent other than the engine reaches the memory; a window byte while BUSY is a race (R42, R102). -/
def storeArrives (a : Word) (b : Byte) (s : State) : Result :=
  if s.inWindow a then .fault .bufferRace else .next (s.writeByte a b)

/-- The host port responds (R87). -/
def State.respond (s : State) (r : Response) : State :=
  { s with response := some r }

/-- RECORDING AN ERROR, the block's whole exception entry (R96, R105; R11 `raise`): one sticky bit is set, nothing
is saved and nothing transferred. -/
def State.raise (s : State) : ErrorCode → State
  | .cmd => { s with errCmd := true }
  | .busy => { s with errBusy := true }
  | .mem => { s with errMem := true }

/-- CLEARING ERRORS, the block's only return from one (R92, R106). -/
def State.clearErrors (s : State) (w : Word) : State :=
  { s with
    errCmd := stickyAfter w .cmd s.errCmd
    errBusy := stickyAfter w .busy s.errBusy
    errMem := stickyAfter w .mem s.errMem }

/-- CRC <- c. -/
def State.loadCrc (s : State) (c : Half) : State :=
  { s with crc := c }

/-- ADDR <- w (R89). PTR keeps its value (R21). -/
def State.loadAddr (s : State) (w : Word) : State :=
  { s with addr := w }

/-- The registers of a buffer command of `n` bytes that starts at ADDR (R79); BUSY follows from REM (R25). -/
def State.startWindow (s : State) (n : Half) : State :=
  { s with
    crc := Config.crcInit
    ptr := s.bufferBase
    rem := n
    winBase := s.bufferBase
    winLen := n }

/-- The engine issues a read at `a` and the memory answers it (R31). -/
def State.logRead (s : State) (a : Word) : State :=
  { s with reads := a :: s.reads }

/-- One byte is processed (R83, case `ok`). -/
def State.foldByte (s : State) (b : Byte) : State :=
  { s with
    crc := step8 s.crc b
    ptr := nextAddr s.ptr
    rem := s.rem - 1 }

/-- One draw of free values has been made. -/
def State.countDraw (s : State) : State :=
  { s with draws := s.draws + 1 }

/-- The command ends with nothing processed: REM <- 0, CRC and PTR unspecified (R84); the run is marked (R100). -/
def State.abandon (s : State) : State :=
  { s with
    rem := 0
    crc := Config.freeCrcAfterError s.draws
    ptr := Config.freePtrAfterError s.draws
    memFaulted := true }

/-- `memory_error` (R84). -/
def State.memoryError (s : State) : State :=
  (s.abandon.raise .mem).countDraw

/-- Reset (R111, R112): every state element of the block at its reset value; memory, host and schedule are outside
the block. -/
def State.resetBlock (s : State) : State :=
  { s with
    crc := Config.crcInit
    addr := 0
    errCmd := false
    errBusy := false
    errMem := false
    ptr := 0
    rem := 0
    winBase := 0
    winLen := 0 }

/-- The update of `postTurn`. -/
def State.postStore (s : State) (a : Word) (b : Byte) : State :=
  { s with pending := s.pending ++ [(a, b)] }

/-- What is left of the host's stores. -/
def State.setPending (s : State) (p : List (Word × Byte)) : State :=
  { s with pending := p }

/-- HOST goes on at position `pc` of its script. -/
def State.setHostPc (s : State) (pc : Nat) : State :=
  { s with hostPc := pc }

/-- The events left to come. -/
def State.setSched (s : State) (es : List Event) : State :=
  { s with sched := es }

/-- `rd REG -> name` binds the name to the data the port returned; a write binds nothing (R57). -/
def State.bindName (s : State) : Option Nat → State
  | none => s
  | some v =>
    match s.response with
    | some (.data d) => { s with names := (v, d) :: s.names }
    | _ => s

/-- Go on from a next state; a stop stays a stop. -/
def onNext (f : State → State) : Result → Result
  | .next s => .next (f s)
  | .fault r => .fault r
  | .refused r => .refused r

/-- A host write's transition: its effect, and `okay` (R87). -/
def hostWrite (f : State → State) (s : State) : Result :=
  .next ((f s).respond .okay)

/-- A host read's transition: `okay` with the data, no other effect (R37, R87). -/
def hostRead (d : Word) (s : State) : Result :=
  .next (s.respond (.data d))

/-- A buffer command of `n` bytes is accepted (R79). A host store to a window byte that is not yet at the memory at this
CMD write is treated like a write during BUSY: the race (R119, 93 S10). -/
def startBuffer (n : Half) (s : State) : Result :=
  if s.storeOnWay s.bufferBase n then .fault .bufferRace else .next (s.startWindow n)

/-- The effect of presenting a command: discarded with ERR_BUSY while BUSY = 1 (R99), else `f` (R91). -/
def presentCommand (f : State → Result) (s : State) : Result :=
  if s.busy then .next (s.raise .busy) else f s

/-- A CMD write's transition: the command presented, and `okay` (R87, R91). -/
def hostCommand (f : State → Result) (s : State) : Result :=
  onNext (fun t => t.respond .okay) (presentCommand f s)

end Sys2Proof.Machine
end

