-- ==== Sys2Proof/Machine/Buffer.lean ====
section
/-!
DEFINITION. The buffer commands BUF and LSF, and the engine's byte step (42_buffer_commands).
-/
namespace Sys2Proof.Machine

/-- BUF's effect at issue (R79, R80, R119). -/
def bufEffect (len : Half) (s : State) : Result :=
  startBuffer len s

/-- LSF's effect at issue: the count is 28 (R81, R119). -/
def lsfEffect (s : State) : Result :=
  startBuffer Config.lsfLen s

/-- BUF, carried by a CMD write (R79, R80). -/
def execBuf (len : Half) (s : State) : Result :=
  hostCommand (bufEffect len) s

/-- LSF, carried by a CMD write (R81). -/
def execLsf (s : State) : Result :=
  hostCommand lsfEffect s

/-- What the engine does with the memory's answer at PTR (R83, R84). A memory that never answers leaves the block
waiting with BUSY = 1 (R122); a host store on its way to that byte is a race (log 3: from a command that `startBuffer`
accepted, no run comes to such a read). -/
def engineRead (s : State) : MemAnswer → Result
  | .never => .next s
  | .err =>
    if s.storePending s.ptr then .fault .bufferRace else .next (s.logRead s.ptr).memoryError
  | .ok b =>
    if s.storePending s.ptr then .fault .bufferRace else .next ((s.logRead s.ptr).foldByte b)

/-- ENGINE's turn: its byte step where it is enabled, BUSY = 1; nothing where it is not (R83). -/
def engineTurn (s : State) : Result :=
  if s.busy then engineRead s (s.memRead s.ptr) else .next s

end Sys2Proof.Machine
end

