-- ==== Sys2Proof/Machine/Stream.lean ====
section
/-!
DEFINITION. The stream commands INIT and FEED (41_stream_commands).
-/
namespace Sys2Proof.Machine

/-- INIT's effect: CRC <- 0xFFFF (R76). -/
def initEffect (s : State) : Result :=
  .next (s.loadCrc Config.crcInit)

/-- FEED's effect: CRC <- step8(CRC, DATA) (R77). -/
def feedEffect (data : Byte) (s : State) : Result :=
  .next (s.loadCrc (step8 s.crc data))

/-- INIT, carried by a CMD write (R75, R76). -/
def execInit (s : State) : Result :=
  hostCommand initEffect s

/-- FEED, carried by a CMD write (R75, R77). -/
def execFeed (data : Byte) (s : State) : Result :=
  hostCommand (feedEffect data) s

end Sys2Proof.Machine
end

