-- ==== Sys2Proof/Machine/Access.lean ====
section
/-!
DEFINITION. The host transactions (43_register_access).
-/
namespace Sys2Proof.Machine

/-- The effect of a decoded command word while BUSY = 0; an illegal one sets ERR_CMD (R91, R98). -/
def commandEffect : Except CommandError Command → State → Result
  | .ok .init, s => initEffect s
  | .ok (.feed d), s => feedEffect d s
  | .ok (.buf n), s => bufEffect n s
  | .ok .lsf, s => lsfEffect s
  | .error _, s => .next (s.raise .cmd)

/-- RD.CRC: CRC zero-extended; while BUSY = 1 its low half is a free value (R88, R116). -/
def execRdCrc (s : State) : Result :=
  if s.busy then hostRead ((Config.freeCrcRead s.draws).setWidth 32) s.countDraw
  else hostRead (s.crc.setWidth 32) s

/-- WR.CRC: accepted and ignored (R20, R93). -/
def execWrCrc (_w : Word) (s : State) : Result :=
  hostWrite id s

/-- RD.ADDR (R89). -/
def execRdAddr (s : State) : Result :=
  hostRead s.addr s

/-- WR.ADDR: ADDR <- wdata at any time; PTR is not touched (R21, R89). -/
def execWrAddr (w : Word) (s : State) : Result :=
  hostWrite (fun u => u.loadAddr w) s

/-- RD.CMD: reads 0 (R22, R93). -/
def execRdCmd (s : State) : Result :=
  hostRead 0 s

/-- WR.CMD: present a command word; BUSY is tested first, then the word is decoded (R49, R91, R104). -/
def execWrCmd (w : Word) (s : State) : Result :=
  hostCommand (commandEffect (decodeCommand w)) s

/-- RD.STATUS: reading clears nothing (R90). -/
def execRdStatus (s : State) : Result :=
  hostRead s.statusWord s

/-- WR.STATUS: write-1-to-clear of the error bits (R92). -/
def execWrStatus (w : Word) (s : State) : Result :=
  hostWrite (fun u => u.clearErrors w) s

end Sys2Proof.Machine
end

