-- ==== Sys2Proof/Machine/Dispatch.lean ====
section
/-!
DEFINITION. One arm per instruction, each a direct call of its meaning.
-/
namespace Sys2Proof.Machine

def exec (i : Instr) (s : State) : Host.Outcome State Fault Refusal :=
  match i with
  | .init => Sys2Proof.Machine.execInit s
  | .feed data => Sys2Proof.Machine.execFeed data s
  | .buf len => Sys2Proof.Machine.execBuf len s
  | .lsf => Sys2Proof.Machine.execLsf s
  | .rdCrc => Sys2Proof.Machine.execRdCrc s
  | .wrCrc w => Sys2Proof.Machine.execWrCrc w s
  | .rdAddr => Sys2Proof.Machine.execRdAddr s
  | .wrAddr w => Sys2Proof.Machine.execWrAddr w s
  | .rdCmd => Sys2Proof.Machine.execRdCmd s
  | .wrCmd w => Sys2Proof.Machine.execWrCmd w s
  | .rdStatus => Sys2Proof.Machine.execRdStatus s
  | .wrStatus w => Sys2Proof.Machine.execWrStatus w s

end Sys2Proof.Machine
end

