-- ==== Sys2Proof/Machine/Agents.lean ====
section
/-!
DEFINITION. Who moves next and what it does: HOST's turn, an event of the schedule, and the turn taken when nothing is
scheduled (R13, R40, R83, R121).
-/
namespace Sys2Proof.Machine

/-- HOST's next statement, if its script has one. -/
def fetchStmt (s : State) : Option Stmt :=
  s.script[s.hostPc]?

/-- HOST issues a request: the decoded instruction runs as one transition; a transaction that is not admitted is the
fault HostBusError (R94, R101). -/
def hostIssue (r : Request) (dst : Option Nat) (s : State) : Result :=
  match decode r with
  | .error _ => .fault .hostBusError
  | .ok i => onNext (fun t => t.bindName dst) (exec i s)

/-- Where `bnz name & mask, target` goes on (R57). -/
def bnzNext (v : Nat) (mask : Word) (target : Nat) (s : State) : Nat :=
  if s.nameValue v &&& mask ≠ 0 then target else s.hostPc + 1

/-- HOST executes one statement (R57). -/
def hostStmt (st : Stmt) (s : State) : Result :=
  match st with
  | .issue r dst => hostIssue r dst (s.setHostPc (s.hostPc + 1))
  | .bnz v mask target => .next (s.setHostPc (bnzNext v mask target s))

/-- HOST's turn; a host with no statement left does nothing, and the block waits (R113). -/
def hostTurn (s : State) : Result :=
  match fetchStmt s with
  | none => .next s
  | some st => hostStmt st s

/-- The oldest pending host store reaches the memory (R41, R119). -/
def drainTurn (s : State) : Result :=
  match s.pending with
  | [] => .next s
  | (a, b) :: rest => storeArrives a b (s.setPending rest)

/-- The host issues a store that is not yet at the memory (R119); a store to a window byte while BUSY = 1 is the race
when it is issued (R118, log 3). -/
def postTurn (a : Word) (b : Byte) (s : State) : Result :=
  if s.inWindow a then .fault .bufferRace else .next (s.postStore a b)

/-- One scheduled event. -/
def eventTurn (e : Event) (s : State) : Result :=
  match e with
  | .host => hostTurn s
  | .engine => engineTurn s
  | .reset => .next s.resetBlock
  | .store a b => storeArrives a b s
  | .post a b => postTurn a b s
  | .drain => drainTurn s

/-- The turn when nothing is scheduled: ENGINE while BUSY = 1 (the weak fairness of R122), else HOST. -/
def idleTurn (s : State) : Result :=
  if s.busy then engineTurn s else hostTurn s

/-- One transition of the total order (R40, R104). -/
def takeTurn (s : State) : Result :=
  match s.sched with
  | [] => idleTurn s
  | e :: rest => eventTurn e (s.setSched rest)

/-- A host script of one statement, issued next. -/
def placeRequest (s : State) (r : Request) : State :=
  { s with script := [.issue r none], hostPc := 0, sched := .host :: s.sched }

end Sys2Proof.Machine
end

