-- ==== Sys2Proof/Machine/Step.lean ====
section
/-!
DEFINITION. One step of the machine, and the placing of one instruction where the next step issues it.
-/
namespace Sys2Proof.Machine

/-- One transition: the event the schedule names, or the turn taken when it names none. -/
def step (s : State) : Host.Outcome State Fault Refusal :=
  takeTurn s

/-- `s` with the table's instruction as HOST's script and HOST scheduled next (log 5). -/
def State.withFetchWord (s : State) (nbits w : Nat) : State :=
  placeRequest s (tableRequest nbits w)

end Sys2Proof.Machine
end

