-- ==== Sys2Proof/Machine/Script.lean ====
section
/-!
DEFINITION. The host-script language (R57) and its pseudo-instructions (R58), assembled to the statements HOST runs.
-/
namespace Sys2Proof.Machine

/-- The registers of the host port (R19). -/
inductive PortReg where
  | crc
  | addr
  | cmd
  | status
  deriving DecidableEq, Repr

/-- A line of a host script. A name and a label are numbers; `statusName` is the name the pseudos bind. -/
inductive Line where
  | wr (r : PortReg) (imm : Word)
  | rd (r : PortReg) (name : Nat)
  | crcInit
  | crcFeed (imm : Byte)
  | crcBuf (imm : Half)
  | crcLsf
  | label (l : Nat)
  | bnz (name : Nat) (mask : Word) (l : Nat)
  | waitIdle
  | crc16 (addr : Word) (n : Half) (name : Nat)
  | lsfcrc (addr : Word) (name : Nat)
  | clrErr
  deriving DecidableEq, Repr

/-- A register's offset (R19). -/
def portOffset : PortReg → BitVec 8
  | .crc => 0x00
  | .addr => 0x04
  | .cmd => 0x08
  | .status => 0x0C

/-- The name `s` of the expansions of R58 (log 5). -/
def statusName : Nat := 0

/-- `wr REG, imm32` (R57). -/
def wrStmt (r : PortReg) (imm : Word) : Stmt :=
  .issue (.access (packDesc true (portOffset r)) imm) none

/-- `rd REG -> name` (R57). -/
def rdStmt (r : PortReg) (name : Nat) : Stmt :=
  .issue (.access (packDesc false (portOffset r)) 0) (some name)

/-- A command's statement (R57). -/
def cmdStmt (c : Command) : Stmt :=
  .issue (.command (encodeCommand c)) none

/-- `wait_idle` at position `pos` (R58). -/
def waitIdleStmts (pos : Nat) : List Stmt :=
  [rdStmt .status statusName, .bnz statusName 1 pos]

/-- The two source operations: base address, command, wait, read the result (R58). -/
def computeStmts (pos : Nat) (addr : Word) (c : Command) (name : Nat) : List Stmt :=
  [wrStmt .addr addr, cmdStmt c] ++ waitIdleStmts (pos + 2) ++ [rdStmt .crc name]

/-- How many statements a line becomes. -/
def lineSize : Line → Nat
  | .wr _ _ => 1
  | .rd _ _ => 1
  | .crcInit => 1
  | .crcFeed _ => 1
  | .crcBuf _ => 1
  | .crcLsf => 1
  | .label _ => 0
  | .bnz _ _ _ => 1
  | .waitIdle => 2
  | .crc16 _ _ _ => 5
  | .lsfcrc _ _ => 5
  | .clrErr => 1

/-- Whether a line is the label `l`. -/
def definesLabel (l : Nat) (line : Line) : Bool :=
  line == .label l

/-- The position of a label, counting from `pos`; none where the script does not define it. DESIGN CHOICE (log 21): R57
does not say where `bnz` goes when a script defines a label twice; the model takes the first definition. -/
def labelPos (l : Nat) : Nat → List Line → Option Nat
  | _, [] => none
  | pos, line :: rest =>
    if definesLabel l line then some pos else labelPos l (pos + lineSize line) rest

/-- The statements of a line at position `pos` of the script `all`; none where its label is not defined. -/
def lineStmts (all : List Line) (pos : Nat) : Line → Option (List Stmt)
  | .wr r imm => some [wrStmt r imm]
  | .rd r name => some [rdStmt r name]
  | .crcInit => some [cmdStmt .init]
  | .crcFeed imm => some [cmdStmt (.feed imm)]
  | .crcBuf imm => some [cmdStmt (.buf imm)]
  | .crcLsf => some [cmdStmt .lsf]
  | .label _ => some []
  | .bnz name mask l => (labelPos l 0 all).map (fun target => [.bnz name mask target])
  | .waitIdle => some (waitIdleStmts pos)
  | .crc16 addr n name => some (computeStmts pos addr (.buf n) name)
  | .lsfcrc addr name => some (computeStmts pos addr .lsf name)
  | .clrErr => some [wrStmt .status 0x0000000E]

/-- The lines from position `pos` on, assembled. -/
def assembleFrom (all : List Line) : Nat → List Line → Option (List Stmt)
  | _, [] => some []
  | pos, line :: rest =>
    match lineStmts all pos line, assembleFrom all (pos + lineSize line) rest with
    | some here, some more => some (here ++ more)
    | _, _ => none

/-- A host script, assembled (R57, R58). -/
def assemble (lines : List Line) : Option (List Stmt) :=
  assembleFrom lines 0 lines

/-- `s` with an assembled script loaded, HOST at its first statement. -/
def loadScript (s : State) (script : List Stmt) : State :=
  { s with script := script, hostPc := 0 }

end Sys2Proof.Machine
end

