-- ==== Sys2Proof/Safety.lean ====
section
/-!
DEFINITION. What claims speak of: what a run's end lets a claim observe (R123), a sound run (R100, R123), and the
invariants of the step.
-/
namespace Sys2Proof.Machine

/-- The state a claim about a host script may observe (R123, R124): CRC, ADDR, STATUS and the memory. -/
def observed (s : State) : Half × Word × Word × List Host.Cell :=
  (s.crc, s.addr, s.statusWord, s.mem)

/-- A host script's run has ended: its last statement has executed and BUSY = 0 (R123). -/
def runEnded (s : State) : Bool :=
  decide (s.script.length ≤ s.hostPc) && !s.busy

/-- `k` steps without a model fault reach `t`, and no step recorded ERR_MEM (R123). -/
def soundRun (s : State) (k : Nat) (t : State) : Prop :=
  core.run k s = .next t ∧ t.memFaulted = false

/-- A list of instructions, executed one after the other with nothing in between. -/
def execAll : List Instr → State → Result
  | [], s => .next s
  | i :: rest, s =>
    match exec i s with
    | .next t => execAll rest t
    | .fault r => .fault r
    | .refused r => .refused r

/-- The state of the block itself (R26). -/
def blockState (s : State) : Half × Word × Bool × Bool × Bool × Word × Half :=
  (s.crc, s.addr, s.errCmd, s.errBusy, s.errMem, s.ptr, s.rem)

/-- The STATUS bit of an error (R97). -/
def errorBit (s : State) : ErrorCode → Bool
  | .cmd => s.errCmd
  | .busy => s.errBusy
  | .mem => s.errMem

/-- The byte an instruction feeds to the running CRC: FEED's, however its word is written to CMD (R77, R91). -/
def streamByte : Instr → Option Byte
  | .feed d => some d
  | .wrCmd w =>
    match decodeCommand w with
    | .ok (.feed d) => some d
    | .ok .init => none
    | .ok (.buf _) => none
    | .ok .lsf => none
    | .error _ => none
  | .init => none
  | .buf _ => none
  | .lsf => none
  | .rdCrc => none
  | .wrCrc _ => none
  | .rdAddr => none
  | .wrAddr _ => none
  | .rdCmd => none
  | .rdStatus => none
  | .wrStatus _ => none

/-- An instruction that may stand among the FEEDs of a stream (R78): not INIT, BUF or LSF, however its word is
written. -/
def keepsStream : Instr → Bool
  | .init => false
  | .buf _ => false
  | .lsf => false
  | .wrCmd w =>
    match decodeCommand w with
    | .ok (.feed _) => true
    | .ok .init => false
    | .ok (.buf _) => false
    | .ok .lsf => false
    | .error _ => true
  | .feed _ => true
  | .rdCrc => true
  | .wrCrc _ => true
  | .rdAddr => true
  | .wrAddr _ => true
  | .rdCmd => true
  | .rdStatus => true
  | .wrStatus _ => true

/-- An instruction that presents a command word to CMD (R91). -/
def presentsCommand : Instr → Bool
  | .init => true
  | .feed _ => true
  | .buf _ => true
  | .lsf => true
  | .rdCrc => false
  | .wrCrc _ => false
  | .rdAddr => false
  | .wrAddr _ => false
  | .rdCmd => false
  | .wrCmd _ => true
  | .rdStatus => false
  | .wrStatus _ => false

/-- How many bytes a buffer command reads (R79, R81). -/
def commandWindow : Command → Option Half
  | .init => none
  | .feed _ => none
  | .buf n => some n
  | .lsf => some 28

/-- How many bytes the buffer command has that an instruction presents, if it presents one, however its word is
written (R79, R81, R91). -/
def windowOf : Instr → Option Half
  | .init => none
  | .feed _ => none
  | .buf n => some n
  | .lsf => some 28
  | .rdCrc => none
  | .wrCrc _ => none
  | .rdAddr => none
  | .wrAddr _ => none
  | .rdCmd => none
  | .wrCmd w => (decodeCommand w).toOption.bind commandWindow
  | .rdStatus => none
  | .wrStatus _ => none

/-- HOST takes this step: it is scheduled, or nothing is and BUSY = 0 (log 6). -/
def hostMoves (s : State) : Prop :=
  s.sched.head? = some .host ∨ (s.sched = [] ∧ s.busy = false)

/-- ENGINE takes this step with BUSY = 1: it is scheduled, or nothing is (R83, log 6). -/
def engineMoves (s : State) : Prop :=
  (s.sched.head? = some .engine ∨ s.sched = []) ∧ s.busy = true

/-- The admitted descriptors (R55). -/
def admittedDescs : List Desc :=
  [0x200, 0x600, 0x204, 0x604, 0x208, 0x608, 0x20C, 0x60C]

/-- The memory is in canonical form. -/
def memoryCanonical (s : State) : Prop :=
  Memory.wf s.mem

/-- While a command runs, PTR and REM say how far it is in its window: no more is left than the window has, and PTR
is the address of the first byte left (R33, R83). -/
def windowTracked (s : State) : Prop :=
  s.busy = true →
    s.rem.toNat ≤ s.winLen.toNat ∧ s.ptr = windowAddr s.winBase (s.winLen.toNat - s.rem.toNat)

/-- No host store is on its way to a window byte of the running command (R118, R119). -/
def storesClear (s : State) : Prop :=
  ∀ p ∈ s.pending, s.inWindow p.1 = false

/-- The memory answers with the bytes `bs` at `base`, in order (R33, R41). -/
def holdsBytes (s : State) (base : Word) (bs : List Byte) : Prop :=
  ∀ i b, bs[i]? = some b → s.memRead (windowAddr base i) = .ok b

/-- While a command runs, CRC is the CRC of the window bytes read so far, as the memory holds them (R83, R85). -/
def partialCrc (s : State) : Prop :=
  s.busy = true →
    ∃ bs : List Byte, bs.length = s.winLen.toNat - s.rem.toNat ∧
      holdsBytes s s.winBase bs ∧ s.crc = crc16 bs

/-- The invariant of a running buffer command. -/
def commandInvariant (s : State) : Prop :=
  memoryCanonical s ∧ windowTracked s ∧ partialCrc s

end Sys2Proof.Machine
end

