-- ==== Sys2Proof/Certificates/Slice0/Obligations.lean ====
section
/-!
DEFINITION. The statements for the provers. Each docstring names the rules of spec/ the statement formalises; where it
rests on a choice of the model, it names the log entry.
-/
open Sys2Proof Sys2Proof.Machine

/-! Reset -/

/-- R27: the value of every state element after reset. -/
def Obligations.ResetValues : Prop :=
  State.reset.crc = 0xFFFF ∧ State.reset.addr = 0x00000000 ∧ State.reset.busy = false ∧
    State.reset.errCmd = false ∧ State.reset.errBusy = false ∧ State.reset.errMem = false ∧
    State.reset.ptr = 0x00000000 ∧ State.reset.rem = 0 ∧ State.reset.statusWord = 0x00000000

/-- R111: the reset event sets every state element of the block to its reset value, from every state and so also while
BUSY = 1, and no other event than it, a host transaction and an engine step changes the block's state. That memory,
pending stores, host, response, schedule, mark and draw counter stay as they were is the model's reading (log 15), and
that `winBase` and `winLen` go to 0 is the model's choice (log 7). -/
def Obligations.ResetEventAndNoOther : Prop :=
  (∀ (s : State) rest, s.sched = .reset :: rest →
    step s = .next { s with
      sched := rest, crc := 0xFFFF, addr := 0, errCmd := false, errBusy := false, errMem := false,
      ptr := 0, rem := 0, winBase := 0, winLen := 0 }) ∧
  (∀ (s t : State) e rest, s.sched = e :: rest → step s = .next t → e ≠ .reset → e ≠ .host → e ≠ .engine →
    blockState t = blockState s)

/-! The datapath -/

/-- R64: the 16-bit bit step is the source's, and so is the reading that masks after every shift. -/
def Obligations.BitstepIsTheSources : Prop :=
  ∀ c : Half, bitstep c = bitstepSrc c ∧
    bitstep c = ((if (c.setWidth 17 <<< 1).getLsbD 16 then c.setWidth 17 <<< 1 ^^^ 0x5935 else c.setWidth 17 <<< 1) &&&
      0xFFFF).setWidth 16

/-- R15: the source's accumulator is at most 0xFFFF at every byte boundary; a shift of such a value is at most
0x1FFFE, the iteration brings it back to at most 0xFFFF, and the 17-bit working register gives the same value. -/
def Obligations.AccumulatorFitsSixteenBits : Prop :=
  (∀ buf : List Byte, (accBytes 0x0000FFFF buf).toNat ≤ 0xFFFF) ∧
  (∀ acc : Word, acc.toNat ≤ 0xFFFF →
    (acc <<< 1).toNat ≤ 0x1FFFE ∧ (accBit acc).toNat ≤ 0xFFFF ∧
      (accBit acc).setWidth 16 = bitstepSrc (acc.setWidth 16))

/-- R66: the 16-bit form computes the source's function on every byte sequence. -/
def Obligations.CrcIsTheSources : Prop :=
  ∀ buf : List Byte, crc16 buf = crc16Src buf

/-- R68: the threading law, and its example. -/
def Obligations.ThreadingLaw : Prop :=
  (∀ (c : Half) (u v : List Byte), crc16From c (u ++ v) = crc16From (crc16From c u) v) ∧
  (∀ u v : List Byte, crc16 (u ++ v) = crc16From (crc16 u) v) ∧
  crc16 [0x31, 0x32, 0x33, 0x34] = 0x946F ∧ crc16From 0x946F [0x35, 0x36, 0x37, 0x38, 0x39] = 0x772B

/-- R69: no function combines two results computed separately; the counter-example. -/
def Obligations.RestartDoesNotCompose : Prop :=
  (¬ ∃ f : Half → Half → Half, ∀ u v : List Byte, crc16 (u ++ v) = f (crc16 u) (crc16 v)) ∧
  crc16 [0x31, 0x32, 0x33, 0x34] = 0x946F ∧ crc16 [0x35, 0x36, 0x37, 0x38, 0x39] = 0xEB4D ∧
  crc16 [0x31, 0x32, 0x33, 0x34, 0x35, 0x36, 0x37, 0x38, 0x39] = 0x772B

/-- R70: the bit step and the byte step are linear in (c, b) jointly, and the CRC is affine on buffers of one length. -/
def Obligations.AffineLaw : Prop :=
  (∀ c d : Half, bitstep (c ^^^ d) = bitstep c ^^^ bitstep d) ∧
  (∀ (c d : Half) (b e : Byte), step8 (c ^^^ d) (b ^^^ e) = step8 c b ^^^ step8 d e) ∧
  (∀ A B : List Byte, A.length = B.length →
    crc16 (List.zipWith (fun a b => a ^^^ b) A B) = crc16 A ^^^ crc16 B ^^^ crc16 (List.replicate A.length 0))

/-- R71: flipping any one bit of the input changes the result. -/
def Obligations.SingleBitSensitivity : Prop :=
  ∀ (u v : List Byte) (b : Byte) (k : Nat), k < 8 →
    crc16 (u ++ (b ^^^ BitVec.twoPow 8 k) :: v) ≠ crc16 (u ++ b :: v)

/-- R72: the residue is zero for every buffer when its CRC is appended most significant byte first; appended least
significant byte first there is no fixed residue; the examples. -/
def Obligations.ResidueLaw : Prop :=
  (∀ buf : List Byte, crc16 (buf ++ [(crc16 buf).extractLsb' 8 8, (crc16 buf).extractLsb' 0 8]) = 0x0000) ∧
  (¬ ∃ r : Half, ∀ buf : List Byte,
    crc16 (buf ++ [(crc16 buf).extractLsb' 0 8, (crc16 buf).extractLsb' 8 8]) = r) ∧
  crc16 (List.replicate 28 0x00) = 0x95E0 ∧ step8 (step8 0x95E0 0x95) 0xE0 = 0x0000 ∧ crc16 [0xFF, 0xFF] = 0x0000

/-- R74: the byte step by table: one equal form, with T[i] = step8(0, i). -/
def Obligations.TableForm : Prop :=
  ∀ (c : Half) (b : Byte), step8 c b = c <<< 8 ^^^ step8 0x0000 (c.extractLsb' 8 8 ^^^ b)

/-! Encoding -/

/-- R52, R53: the decoder selects a command exactly by the opcode map's mask and match, and is Illegal otherwise. -/
def Obligations.DecodeAgreesWithOpcodeMap : Prop :=
  ∀ w : Word,
    (decodeCommand w = .ok .init ↔ w &&& 0xFFFFFFFF = 0x00000001) ∧
    (∀ d, decodeCommand w = .ok (.feed d) ↔ w &&& 0xFFFF00FF = 0x00000002 ∧ d = w.extractLsb' 8 8) ∧
    (∀ n, decodeCommand w = .ok (.buf n) ↔ w &&& 0x0000FFFF = 0x00000003 ∧ n = w.extractLsb' 16 16) ∧
    (decodeCommand w = .ok .lsf ↔ w &&& 0xFFFFFFFF = 0x00000004) ∧
    ((∃ e, decodeCommand w = .error e) ↔
      w &&& 0xFFFFFFFF ≠ 0x00000001 ∧ w &&& 0xFFFF00FF ≠ 0x00000002 ∧ w &&& 0x0000FFFF ≠ 0x00000003 ∧
        w &&& 0xFFFFFFFF ≠ 0x00000004)

/-- R59: the encoding examples, legal and illegal. -/
def Obligations.EncodingExamples : Prop :=
  decodeCommand 0x00000001 = .ok .init ∧ decodeCommand 0x00004102 = .ok (.feed 0x41) ∧
  decodeCommand 0x00090003 = .ok (.buf 9) ∧ decodeCommand 0x001C0003 = .ok (.buf 28) ∧
  decodeCommand 0xFFFF0003 = .ok (.buf 65535) ∧ decodeCommand 0x00000004 = .ok .lsf ∧
  ∀ w ∈ [(0x00000000 : Word), 0x00000005, 0x00000011, 0x00010001, 0x00010002, 0x00000103, 0x001C0004],
    (decodeCommand w).toOption = none

/-- R55: the eight admitted descriptors and what each is; every other descriptor is rejected. -/
def Obligations.DescriptorTable : Prop :=
  ∀ (t : Desc) (w : Word),
    (t = 0x200 → decodeAccess t w = .ok .rdCrc) ∧ (t = 0x600 → decodeAccess t w = .ok (.wrCrc w)) ∧
    (t = 0x204 → decodeAccess t w = .ok .rdAddr) ∧ (t = 0x604 → decodeAccess t w = .ok (.wrAddr w)) ∧
    (t = 0x208 → decodeAccess t w = .ok .rdCmd) ∧ (t = 0x608 → decodeAccess t w = .ok (.wrCmd w)) ∧
    (t = 0x20C → decodeAccess t w = .ok .rdStatus) ∧ (t = 0x60C → decodeAccess t w = .ok (.wrStatus w)) ∧
    (t ∉ admittedDescs → ∃ e, decodeAccess t w = .error e)

/-- R50 to R55: decoding an encoded instruction gives it back, for every instruction and every operand value. -/
def Obligations.DecodeEncodeRoundTrip : Prop :=
  ∀ i : Instr, decode (encode i) = .ok i

/-- R48, R52, R55: each instruction has one word. A legal command word is its command's encoding; an admitted
descriptor is its transaction's, with the write data of a write. -/
def Obligations.EncodeDecodeRoundTrip : Prop :=
  (∀ w c, decodeCommand w = .ok c → encodeCommand c = w) ∧
  (∀ (t : Desc) (w : Word) (i : Instr), decodeAccess t w = .ok i → encode i = .access t (if descWrites t then w else 0))

/-- R52, R55: the word checks, written from the masks, accept exactly what the decoder, written from the fields,
accepts. -/
def Obligations.WordChecksAgreeWithDecoder : Prop :=
  (∀ w, commandWordOk w = true ↔ ∃ c, decodeCommand w = .ok c) ∧
  (∀ (t : Desc) (w : Word), descOk t = true ↔ ∃ i, decodeAccess t w = .ok i)

/-- R28, R39, R55: an access at CRC_BASE + OFF has the descriptor with that OFF, whatever the base. That an access
outside the 256-byte window has none, and that bus addresses have 32 bits and wrap, is the model's choice (log 20). -/
def Obligations.RegisterWindowDescriptor : Prop :=
  (∀ (write : Bool) (size : BitVec 2) (off : BitVec 8),
    accessDesc write size (Config.crcBase + off.setWidth 32) = some (packFields write size off) ∧
    descWrites (packFields write size off) = write ∧ descSize (packFields write size off) = size ∧
    descOff (packFields write size off) = off) ∧
  (∀ (write : Bool) (size : BitVec 2) (a : Word), 256 ≤ (a - Config.crcBase).toNat → accessDesc write size a = none)

/-! Stream commands -/

/-- R76: INIT, with BUSY = 0, sets CRC to 0xFFFF and changes nothing else; INIT twice is INIT once; a word with OP = 1
and any other bit set is illegal. (BUSY = 1 is `CommandWhileBusyDiscarded`.) -/
def Obligations.InitStartsNewCrc : Prop :=
  (∀ (s : State), s.busy = false → exec .init s = .next { s with crc := 0xFFFF, response := some .okay }) ∧
  (∀ (s : State), s.busy = false → execAll [.init, .init] s = execAll [.init] s) ∧
  (∀ w : Word, w.extractLsb' 0 4 = 1#4 → w ≠ 0x00000001 → ∃ e, decodeCommand w = .error e)

/-- R77: FEED, with BUSY = 0, folds its byte into CRC and changes nothing else; a word with OP = 2 and a nonzero RSV
or LEN is illegal; the corner cases. (BUSY = 1 is `CommandWhileBusyDiscarded`.) -/
def Obligations.FeedFoldsItsByte : Prop :=
  (∀ d (s : State), s.busy = false → exec (.feed d) s = .next { s with crc := step8 s.crc d, response := some .okay }) ∧
  (∀ w : Word, w.extractLsb' 0 4 = 2#4 → (w.extractLsb' 4 4 ≠ 0#4 ∨ w.extractLsb' 16 16 ≠ 0#16) →
    ∃ e, decodeCommand w = .error e) ∧
  step8 0xFFFF 0x00 = 0x4C14 ∧ step8 0x0000 0x00 = 0x0000 ∧ step8 (step8 0xFFFF 0xFF) 0xFF = 0x0000 ∧
  step8 0xFFFF 0x41 = 0x206E

/-- R78: INIT, then FEEDs with any instruction but INIT, BUF and LSF among them, leaves the CRC of the bytes fed; a
BUF or LSF, with no host store on its way to its window (`PendingStoreRaces`), reloads 0xFFFF. -/
def Obligations.StreamEquivalence : Prop :=
  (∀ (s : State) is, s.busy = false → (∀ i ∈ is, keepsStream i = true) →
    ∃ t, execAll (.init :: is) s = .next t ∧ t.busy = false ∧ t.crc = crc16 (is.filterMap streamByte)) ∧
  (∀ (s : State), s.busy = false →
    (∀ n, s.storeOnWay s.addr n = false → ∃ t, exec (.buf n) s = .next t ∧ t.crc = 0xFFFF) ∧
    (s.storeOnWay s.addr 28 = false → ∃ t, exec .lsf s = .next t ∧ t.crc = 0xFFFF))

/-! Buffer commands and the engine -/

/-- R79: BUF at issue, with BUSY = 0: CRC, PTR, REM and BUSY, and nothing else of the block; a word with OP = 3 and a
nonzero RSV or DATA is illegal; a later write of ADDR does not touch the running command. (`winBase`, `winLen` are
the model's own, log 7; BUSY = 1 is `CommandWhileBusyDiscarded`; a host store on its way to the window is
`PendingStoreRaces`.) -/
def Obligations.BufStartsItsWindow : Prop :=
  (∀ n (s : State), s.busy = false → s.storeOnWay s.addr n = false →
    exec (.buf n) s = .next { s with
      crc := 0xFFFF, ptr := s.addr, rem := n, winBase := s.addr, winLen := n, response := some .okay }) ∧
  (∀ n (s t : State), s.busy = false → exec (.buf n) s = .next t → (t.busy = true ↔ n ≠ 0)) ∧
  (∀ w : Word, w.extractLsb' 0 4 = 3#4 → (w.extractLsb' 4 4 ≠ 0#4 ∨ w.extractLsb' 8 8 ≠ 0#8) →
    ∃ e, decodeCommand w = .error e) ∧
  (∀ a (s t : State), exec (.wrAddr a) s = .next t → t.ptr = s.ptr ∧ t.rem = s.rem ∧ t.crc = s.crc)

/-- R80: BUF with LEN = 0 completes in the CMD write; no memory read is ever issued for it (ENGINE's turn does
nothing), and a read of CRC right after returns 0x0000FFFF. -/
def Obligations.EmptyBufCompletesAtOnce : Prop :=
  ∀ (s : State), s.busy = false → ∃ t, exec (.buf 0) s = .next t ∧
    t.crc = 0xFFFF ∧ t.rem = 0 ∧ t.busy = false ∧ t.ptr = s.addr ∧ t.reads = s.reads ∧ engineTurn t = .next t ∧
    exec .rdCrc t = .next { t with response := some (.data 0x0000FFFF) }

/-- R81: LSF at issue, with BUSY = 0; a word with OP = 4 and any other bit set is illegal. (`winBase`, `winLen` are
the model's own, log 7; BUSY = 1 is `CommandWhileBusyDiscarded`; a host store on its way to the window is
`PendingStoreRaces`.) -/
def Obligations.LsfStartsItsWindow : Prop :=
  (∀ (s : State), s.busy = false → s.storeOnWay s.addr 28 = false → ∃ t, exec .lsf s = .next t ∧ t.busy = true ∧
    t = { s with
      crc := 0xFFFF, ptr := s.addr, rem := 28, winBase := s.addr, winLen := 28, response := some .okay }) ∧
  (∀ w : Word, w.extractLsb' 0 4 = 4#4 → w ≠ 0x00000004 → ∃ e, decodeCommand w = .error e)

/-- R82: LSF has exactly the effect of BUF with LEN = 28, that is of the word 0x001C0003, in every state. -/
def Obligations.LsfIsBuf28 : Prop :=
  ∀ (s : State), exec .lsf s = exec (.buf 28) s ∧ exec .lsf s = exec (.wrCmd 0x001C0003) s

/-- R83: the engine byte step, as a step of the machine: enabled exactly when BUSY = 1; one byte is folded in, PTR and
REM go on, BUSY falls when REM reaches 0. A host store still on its way to that byte is excluded here
(`PendingStoreRaces`); an answer `err` is `MemoryErrorEndsCommand`. (`reads` is the model's own, log 8.) -/
def Obligations.EngineStepFoldsOneByte : Prop :=
  ∀ (s : State) rest, s.sched = .engine :: rest →
    (s.busy = false → step s = .next { s with sched := rest }) ∧
    (∀ b, s.busy = true → s.storePending s.ptr = false → s.memRead s.ptr = .ok b →
      ∃ t, step s = .next t ∧ (t.busy = false ↔ s.rem = 1) ∧
        t = { s with
          sched := rest, crc := step8 s.crc b, ptr := s.ptr + 1, rem := s.rem - 1, reads := s.ptr :: s.reads })

/-- R84, R100: a memory error sets ERR_MEM and ends the command; CRC and PTR are free values (log 10): the statement
holds whatever they are. (`memFaulted` is the model's mark, log 9.) -/
def Obligations.MemoryErrorEndsCommand : Prop :=
  ∀ (s : State) rest, s.sched = .engine :: rest → s.busy = true → s.storePending s.ptr = false →
    s.memRead s.ptr = .err →
    ∃ t, step s = .next t ∧ t.busy = false ∧
      t = { s with
        sched := rest, errMem := true, rem := 0, crc := Config.freeCrcAfterError s.draws,
        ptr := Config.freePtrAfterError s.draws, reads := s.ptr :: s.reads, memFaulted := true, draws := s.draws + 1 }

/-- R122: a memory that never answers the read at PTR leaves BUSY at 1, however many engine steps are taken, and
everything else as it was. (Which addresses never answer is plain data, log 2; that ENGINE takes every turn while
nothing is scheduled and BUSY = 1 is the model's choice, log 6.) -/
def Obligations.UnansweredReadHangs : Prop :=
  ∀ (s : State) (k : Nat), s.sched = [] → s.busy = true → s.memRead s.ptr = .never → core.run k s = .next s

/-- R33, R85: BUF over a window whose bytes the memory holds and no host store is on its way to, run with nothing
else scheduled: after LEN engine steps CRC is the CRC of those bytes, BUSY is 0, no error is recorded, and the engine
has read exactly the window's addresses, each once, in ascending order. (That ENGINE takes every turn while nothing is
scheduled and BUSY = 1 is the model's choice, log 6, and so is the record of the reads, log 8; a pending store is
plain data, log 3.) -/
def Obligations.BufferCommandResult : Prop :=
  ∀ (s : State) (bs : List Byte), s.busy = false → s.sched = [] → bs.length < 65536 → holdsBytes s s.addr bs →
    (∀ i, i < bs.length → s.storePending (windowAddr s.addr i) = false) →
    ∃ t u, exec (.buf (BitVec.ofNat 16 bs.length)) s = .next t ∧ core.run bs.length t = .next u ∧
      u.crc = crc16 bs ∧ u.busy = false ∧ u.errMem = s.errMem ∧ u.mem = s.mem ∧
      u.reads = ((List.range bs.length).map (windowAddr s.addr)).reverse ++ s.reads

/-- R85: with host transactions, stores outside the window and engine steps interleaved in any way, the step that
clears BUSY without a memory error leaves the CRC of the whole window, as the memory holds it. (The window record is
log 7, the mark log 9, a memory that reads do not change log 14.) -/
def Obligations.LastByteGivesWindowCrc : Prop :=
  ∀ (s t : State), commandInvariant s → s.busy = true → step s = .next t → t.busy = false → t.memFaulted = false →
    s.sched.head? ≠ some .reset →
    ∃ bs : List Byte, bs.length = t.winLen.toNat ∧ holdsBytes t t.winBase bs ∧ t.crc = crc16 bs

/-- R33, R83, R85: every step keeps the running command's invariant: the memory is canonical, PTR and REM track the
window, and CRC is the CRC of the window bytes read so far as the memory holds them. (The window record is log 7, a
memory that reads do not change log 14, the memory's list log 1.) -/
def Obligations.CommandInvariantKept : Prop :=
  ∀ (s t : State), commandInvariant s → step s = .next t → commandInvariant t

/-- The invariant of the running command holds at reset. -/
def Obligations.CommandInvariantAtReset : Prop :=
  commandInvariant State.reset

/-- R86, R122: with nothing else scheduled, a memory that answers every read and no host store on its way, a command
ends after at most REM engine steps. (The turn taken when nothing is scheduled is the model's, log 6.) -/
def Obligations.CommandTerminates : Prop :=
  ∀ (s : State), s.sched = [] → s.silent = [] → s.pending = [] →
    ∃ (k : Nat) (t : State), k ≤ s.rem.toNat ∧ core.run k s = .next t ∧ t.busy = false

/-- R33, R81: a byte outside the 28 of the window (the record's trailing field among them) cannot change what LSF
does: with nothing scheduled and no host statement left, every run from the memory with such a byte changed is the
run from the memory without, with that byte changed. (The turn taken when nothing is scheduled is the model's choice,
log 6.) -/
def Obligations.LsfIgnoresOtherBytes : Prop :=
  ∀ (s : State) a b (u v : State) k (t : State), s.busy = false → s.sched = [] → fetchStmt s = none →
    28 ≤ (a - s.addr).toNat →
    exec .lsf s = .next u → exec .lsf (s.writeByte a b) = .next v → core.run k u = .next t →
    core.run k v = .next (t.writeByte a b)

/-- R34: address arithmetic is modulo 2^32; the address after 0xFFFFFFFF is 0. -/
def Obligations.AddressesWrap : Prop :=
  (∀ (base : Word) (i : Nat), (windowAddr base i).toNat = (base.toNat + i) % 2 ^ 32 ∧
    nextAddr (windowAddr base i) = windowAddr base (i + 1)) ∧
  nextAddr 0xFFFFFFFF = 0x00000000

/-! Host transactions -/

/-- R88: RD.CRC returns CRC with BUSY = 0; with BUSY = 1 a free value (log 10) in the low half; the high half is 0
always; no other effect (`draws` counts the free values, log 10). -/
def Obligations.RdCrcReturnsCrc : Prop :=
  (∀ (s : State), s.busy = false → exec .rdCrc s = .next { s with response := some (.data (s.crc.setWidth 32)) }) ∧
  (∀ (s : State), s.busy = true →
    exec .rdCrc s = .next { s with
      response := some (.data ((Config.freeCrcRead s.draws).setWidth 32)), draws := s.draws + 1 }) ∧
  (∀ (s t : State), exec .rdCrc s = .next t → ∃ d, t.response = some (.data d) ∧ d.extractLsb' 16 16 = 0#16) ∧
  exec .rdCrc State.reset = .next { State.reset with response := some (.data 0x0000FFFF) }

/-- R89: RD.ADDR and WR.ADDR, in every state: all 32 bits, BUSY or not, PTR untouched; a later BUF or LSF, with
no host store on its way to its window (`PendingStoreRaces`), uses the new value. -/
def Obligations.AddrReadWrite : Prop :=
  (∀ (s : State), exec .rdAddr s = .next { s with response := some (.data s.addr) }) ∧
  (∀ w (s : State), exec (.wrAddr w) s = .next { s with addr := w, response := some .okay }) ∧
  (∀ w (s : State), s.busy = false →
    (s.storeOnWay w 28 = false → ∃ t, execAll [.wrAddr w, .lsf] s = .next t ∧ t.ptr = w) ∧
    (∀ n, s.storeOnWay w n = false → ∃ t, execAll [.wrAddr w, .buf n] s = .next t ∧ t.ptr = w))

/-- R90: RD.STATUS returns ERR_MEM, ERR_BUSY, ERR_CMD, BUSY in bits 3 to 0 and zeros above, and clears nothing; BUSY
is 1 exactly when bytes are left (R25). -/
def Obligations.RdStatusReturnsStatus : Prop :=
  ∀ (s : State), ∃ d, exec .rdStatus s = .next { s with response := some (.data d) } ∧
    d.getLsbD 0 = decide (s.rem ≠ 0) ∧ d.getLsbD 1 = s.errCmd ∧ d.getLsbD 2 = s.errBusy ∧ d.getLsbD 3 = s.errMem ∧
    ∀ i, 4 ≤ i → d.getLsbD i = false

/-- R91, R98: WR.CMD with BUSY = 0 has the effect of the command its word decodes to; an illegal word sets ERR_CMD and
changes nothing else. -/
def Obligations.WrCmdDispatches : Prop :=
  ∀ w (s : State), s.busy = false →
    (∀ c, decodeCommand w = .ok c → exec (.wrCmd w) s = exec (commandInstr c) s) ∧
    (∀ e, decodeCommand w = .error e → exec (.wrCmd w) s = .next { s with errCmd := true, response := some .okay })

/-- R49, R99: any word written to CMD while BUSY = 1, as a command or as a CMD write, legal or not, sets ERR_BUSY and
changes nothing else. -/
def Obligations.CommandWhileBusyDiscarded : Prop :=
  ∀ i (s : State), presentsCommand i = true → s.busy = true →
    exec i s = .next { s with errBusy := true, response := some .okay }

/-- R92: WR.STATUS clears the error bits written 1 and leaves the others; bit 0 and bits 31:4 are ignored, BUSY is
never changed. -/
def Obligations.WrStatusClearsWrittenOnes : Prop :=
  (∀ w (s : State), exec (.wrStatus w) s = .next { s with
    errCmd := s.errCmd && !w.getLsbD 1, errBusy := s.errBusy && !w.getLsbD 2, errMem := s.errMem && !w.getLsbD 3,
    response := some .okay }) ∧
  (∀ w v (s : State), w &&& 0x0000000E = v &&& 0x0000000E → exec (.wrStatus w) s = exec (.wrStatus v) s) ∧
  (∀ (s : State), exec (.wrStatus 0) s = .next { s with response := some .okay })

/-- R93: WR.CRC changes nothing, RD.CMD returns 0 and changes nothing, in every state. -/
def Obligations.WrCrcAndRdCmdDoNothing : Prop :=
  (∀ w (s : State), exec (.wrCrc w) s = .next { s with response := some .okay }) ∧
  (∀ (s : State), exec .rdCmd s = .next { s with response := some (.data 0x00000000) })

/-- R94: whenever HOST moves, scheduled (BUSY or not) or with nothing scheduled (BUSY = 0, log 6), a transaction whose
descriptor is not admitted is the fault HostBusError, whatever its data. (That the machine stops there is log 12; the
script HOST fetches from is log 5.) -/
def Obligations.IllegalTransactionIsBusError : Prop :=
  ∀ (s : State) (t : Desc) (w : Word) dst, hostMoves s →
    fetchStmt s = some (.issue (.access t w) dst) → t ∉ admittedDescs →
    step s = .fault .hostBusError

/-- R87: every instruction completes in every state, BUSY or not, with a response: data for a read, okay for a write
or a command. The one exception is a buffer command presented with BUSY = 0 while a host store is on its way to its
window, which is the fault of R119 (`PendingStoreRaces`). -/
def Obligations.EveryTransactionResponds : Prop :=
  ∀ i (s : State), (∀ n, windowOf i = some n → s.busy = false → s.storeOnWay s.addr n = false) →
    ∃ t, exec i s = .next t ∧
      (if i = .rdCrc ∨ i = .rdAddr ∨ i = .rdCmd ∨ i = .rdStatus then ∃ d, t.response = some (.data d)
       else t.response = some .okay)

/-- R14, R21, R23, R24, R30, R37: the frame of every instruction: which may change CRC, ADDR, PTR, REM, each error
bit; every byte of memory reads as before; nothing of the host, the schedule or the model's records changes, but for
the response, the window's record and the draw counter. -/
def Obligations.InstructionFrame : Prop :=
  ∀ i (s t : State), exec i s = .next t →
    (∀ a, t.memRead a = s.memRead a) ∧
    (presentsCommand i = false → t.crc = s.crc) ∧
    ((∀ w, i ≠ .wrAddr w) → t.addr = s.addr) ∧
    (windowOf i = none → t.ptr = s.ptr ∧ t.rem = s.rem ∧ t.winBase = s.winBase ∧ t.winLen = s.winLen) ∧
    ((∀ w, i ≠ .wrStatus w) →
      t.errMem = s.errMem ∧ ((∀ w, i ≠ .wrCmd w) → t.errCmd = s.errCmd) ∧
      (presentsCommand i = false → t.errBusy = s.errBusy)) ∧
    (i ≠ .rdCrc → t.draws = s.draws) ∧
    t.mem = s.mem ∧ t.silent = s.silent ∧ t.pending = s.pending ∧ t.script = s.script ∧ t.hostPc = s.hostPc ∧
    t.names = s.names ∧ t.sched = s.sched ∧ t.reads = s.reads ∧ t.memFaulted = s.memFaulted

/-! The machine -/

/-- A step runs the decoded instruction: when HOST moves and its statement decodes to `i`, the step is `exec i` on the
state with the event taken and HOST past its statement, and then the name is bound to the data (R57, R87). (The script
HOST fetches from is the model's choice, log 5, and so is that HOST moves with nothing scheduled and BUSY = 0, log 6.) -/
def Obligations.StepRunsDecodedInstruction : Prop :=
  ∀ (s : State) r dst i, fetchStmt s = some (.issue r dst) → decode r = .ok i →
    (∀ rest, s.sched = .host :: rest →
      step s = onNext (fun t => t.bindName dst) (exec i { s with sched := rest, hostPc := s.hostPc + 1 })) ∧
    (s.sched = [] → s.busy = false →
      step s = onNext (fun t => t.bindName dst) (exec i { s with hostPc := s.hostPc + 1 }))

/-- The placed instruction is the next one run: where the decoder reads `i` from a table word, the step after placing
that word is `exec i`, with the one-statement script behind it (log 5; the form of a table word is log 18). -/
def Obligations.PlacedWordRunsNext : Prop :=
  ∀ (s : State) (nbits w : Nat) (i : Instr), decodeTableWord nbits w = some i →
    step (s.withFetchWord nbits w) =
      exec i { s with script := [.issue (tableRequest nbits w) none], hostPc := 1 }

/-- R57: the host-side branch goes to its target if the named value and the mask meet in a 1, else on; nothing else
changes. (HOST's script and names in State are log 5, an unbound name's value log 11.) -/
def Obligations.HostBranch : Prop :=
  ∀ (s : State) (rest : List Event) (v : Nat) (mask : Word) (target : Nat), s.sched = .host :: rest →
    fetchStmt s = some (.bnz v mask target) →
    (s.nameValue v &&& mask ≠ 0 → step s = .next { s with sched := rest, hostPc := target }) ∧
    (s.nameValue v &&& mask = 0 → step s = .next { s with sched := rest, hostPc := s.hostPc + 1 })

/-- R58: one round of `wait_idle`: HOST reads STATUS and is back at its first statement while BUSY = 1, past it when
BUSY = 0; the block's state is as it was. (HOST's script and names in State are log 5.) -/
def Obligations.WaitIdlePolls : Prop :=
  ∀ (s : State) rest, s.sched = .host :: .host :: rest →
    s.script[s.hostPc]? = (waitIdleStmts s.hostPc)[0]? → s.script[s.hostPc + 1]? = (waitIdleStmts s.hostPc)[1]? →
    ∃ t : State, core.run 2 s = .next t ∧ blockState t = blockState s ∧ t.sched = rest ∧
      t.hostPc = if s.busy then s.hostPc else s.hostPc + 2

/-- R42, R102, R118: a store by another agent to a window byte while BUSY = 1 is the fault BufferRace; every other
store reaches the memory, and then that byte reads as stored (where the memory answers) and every other byte as
before (R41). (`winBase` and `winLen` are the window of the running command, log 7. That the byte reads as stored also
where the address answered `err` before is the model's choice, log 13. The host's stores on their way are
`DrainedStoreReachesMemory` and `PostedStoreWaits`.) -/
def Obligations.StoreRacesOnlyInWindow : Prop :=
  ∀ (s : State) a b rest, s.sched = .store a b :: rest →
    (s.busy = true ∧ (∃ i, i < s.winLen.toNat ∧ a = windowAddr s.winBase i) → step s = .fault .bufferRace) ∧
    (¬ (s.busy = true ∧ ∃ i, i < s.winLen.toNat ∧ a = windowAddr s.winBase i) →
      ∃ t, step s = .next t ∧ t = { s with sched := rest, mem := t.mem } ∧
        (a ∉ s.silent → t.memRead a = .ok b) ∧ ∀ x, x ≠ a → t.memRead x = s.memRead x)

/-- R41, R42, R118: when the oldest host store on its way reaches the memory, it leaves the list, its byte reads as
stored (where the memory answers) and every other byte as before; to a window byte while BUSY = 1 it is the fault
BufferRace; with no store on its way nothing happens. (The list and its order are the model's choice, log 3; that the
byte reads as stored where it answered `err` before is log 13; the window record is log 7.) -/
def Obligations.DrainedStoreReachesMemory : Prop :=
  ∀ (s : State) rest, s.sched = .drain :: rest →
    (s.pending = [] → step s = .next { s with sched := rest }) ∧
    (∀ a b p, s.pending = (a, b) :: p →
      (s.busy = true ∧ (∃ i, i < s.winLen.toNat ∧ a = windowAddr s.winBase i) → step s = .fault .bufferRace) ∧
      (¬ (s.busy = true ∧ ∃ i, i < s.winLen.toNat ∧ a = windowAddr s.winBase i) →
        ∃ t, step s = .next t ∧ t = { s with sched := rest, pending := p, mem := t.mem } ∧
          (a ∉ s.silent → t.memRead a = .ok b) ∧ ∀ x, x ≠ a → t.memRead x = s.memRead x))

/-- R43, R118: a store the host posts stands last in the list of those on their way, and memory is as before; to a
window byte while BUSY = 1 it is the fault BufferRace. (The list is the model's choice, and so is that the fault comes
when the store is posted, log 3; the window record is log 7.) -/
def Obligations.PostedStoreWaits : Prop :=
  ∀ (s : State) a b rest, s.sched = .post a b :: rest →
    (s.busy = true ∧ (∃ i, i < s.winLen.toNat ∧ a = windowAddr s.winBase i) → step s = .fault .bufferRace) ∧
    (¬ (s.busy = true ∧ ∃ i, i < s.winLen.toNat ∧ a = windowAddr s.winBase i) →
      step s = .next { s with sched := rest, pending := s.pending ++ [(a, b)] })

/-- R119, 93 S10: a buffer command presented with BUSY = 0, however its word is written, while a host store to one of
its window's bytes is not yet at the memory, is treated like a write during BUSY: the fault BufferRace, whatever comes
later. A read by the engine that meets such a store is the same fault; that second check is the model's choice (log 3),
and by `CommandInvariantKept` and `StoresStayClear` no run from reset comes to it. -/
def Obligations.PendingStoreRaces : Prop :=
  (∀ i (s : State) n k, windowOf i = some n → s.busy = false → k < n.toNat →
    s.storePending (windowAddr s.addr k) = true →
    exec i s = .fault .bufferRace) ∧
  (∀ (s : State) rest, s.sched = .engine :: rest → s.busy = true → s.memRead s.ptr ≠ .never →
    s.storePending s.ptr = true →
    step s = .fault .bufferRace)

/-- R118, R119: no host store is on its way to a window byte of the running command at reset, and every step keeps that,
so no run from there depends on a store that may or may not be seen. (The list of stores is log 3, the window record
log 7, both the model's choice.) -/
def Obligations.StoresStayClear : Prop :=
  storesClear State.reset ∧ ∀ (s t : State), storesClear s → step s = .next t → storesClear t

/-- R30: no step changes what a byte of memory reads as but a store of another agent or of the host reaching it. (That an
engine read leaves the memory as it reads is the model's choice, log 14; the host's stores on their way are log 3.) -/
def Obligations.BlockNeverWritesMemory : Prop :=
  ∀ (s t : State) a, step s = .next t → t.memRead a ≠ s.memRead a →
    (∃ b rest, s.sched = .store a b :: rest) ∨
    (∃ b p rest, s.sched = .drain :: rest ∧ s.pending = (a, b) :: p)

/-- The memory's canonical form is kept by every step. (The list is the model's form of the memory of R28, log 1.) -/
def Obligations.MemoryCanonicalKept : Prop :=
  ∀ (s t : State), memoryCanonical s → step s = .next t → memoryCanonical t

/-- R106, R107: an error bit that is set stays set through every step but a reset and a step in which HOST writes 1 to it
in STATUS. (That HOST moves with nothing scheduled and BUSY = 0 is log 6.) -/
def Obligations.ErrorBitsAreSticky : Prop :=
  ∀ (s t : State) e, step s = .next t → errorBit s e = true →
    errorBit t e = true ∨ s.sched.head? = some .reset ∨
    (hostMoves s ∧ ∃ r dst w, fetchStmt s = some (.issue r dst) ∧ decode r = .ok (.wrStatus w) ∧
      w.getLsbD (errorCode e) = true)

/-- R97, R104: the machine stops only by the two model faults: HostBusError where HOST moves at a statement that is not
admitted, BufferRace while BUSY = 1 or where HOST moves and presents a buffer command to whose window a host store is
on its way; it never refuses. (That it stops at these faults is log 12 and log 3, HOST's turn log 6.) -/
def Obligations.StopsOnlyByModelFaults : Prop :=
  (∀ (s : State) f, step s = .fault f →
    (f = .hostBusError ∧ hostMoves s ∧ ∃ r dst e, fetchStmt s = some (.issue r dst) ∧ decode r = .error e) ∨
    (f = .bufferRace ∧ (s.busy = true ∨
      hostMoves s ∧ ∃ r dst i n, fetchStmt s = some (.issue r dst) ∧ decode r = .ok i ∧ windowOf i = some n ∧
        s.storeOnWay s.addr n = true))) ∧
  (∀ (s : State) r, step s ≠ .refused r)

/-- R100, R123: the mark of a faulted run (log 9) is never taken back, and a step that sets it is an engine step at which
the memory answered `err` at PTR; it has recorded ERR_MEM and ended the command. -/
def Obligations.FaultMarkIsKept : Prop :=
  ∀ (s t : State), step s = .next t →
    (s.memFaulted = true → t.memFaulted = true) ∧
    (s.memFaulted = false → t.memFaulted = true →
      engineMoves s ∧ s.memRead s.ptr = .err ∧ t.errMem = true ∧ t.busy = false)

/-- R24, R124: PTR is not observable: whatever it holds, every instruction leaves the same observed state and gives
the same response. -/
def Obligations.PtrIsNotObservable : Prop :=
  ∀ i (s : State) p (t u : State), exec i s = .next t → exec i { s with ptr := p } = .next u →
    observed t = observed u ∧ t.response = u.response
end

