-- ==== Sys2Proof/Laws/Crc.lean ====
section
/-!
SUPPORT. The small lemmas of the datapath's functions.
-/
namespace Sys2Proof.Machine

@[simp] theorem bitsteps_zero (c : Half) : bitsteps 0 c = c := rfl

@[simp] theorem bitsteps_succ (n : Nat) (c : Half) : bitsteps (n + 1) c = bitsteps n (bitstep c) := rfl

@[simp] theorem crc16From_nil (c : Half) : crc16From c [] = c := rfl

@[simp] theorem crc16From_cons (c : Half) (b : Byte) (bs : List Byte) :
    crc16From c (b :: bs) = crc16From (step8 c b) bs := rfl

@[simp] theorem accBits_zero (acc : Word) : accBits 0 acc = acc := rfl

@[simp] theorem accBits_succ (n : Nat) (acc : Word) : accBits (n + 1) acc = accBits n (accBit acc) := rfl

@[simp] theorem accBytes_nil (acc : Word) : accBytes acc [] = acc := rfl

@[simp] theorem accBytes_cons (acc : Word) (b : Byte) (bs : List Byte) :
    accBytes acc (b :: bs) = accBytes (accByte acc b) bs := rfl

/-- Bit `i` of a bit step: the bit below it, with the polynomial's bit added where bit 15 is set. -/
theorem getLsbD_bitstep (c : Half) (i : Nat) :
    (bitstep c).getLsbD i =
      ((decide (i < 16) && !decide (i < 1) && c.getLsbD (i - 1)) ^^ (c.getLsbD 15 && Config.poly.getLsbD i)) := by
  simp only [bitstep]
  cases h : c.getLsbD 15 <;> simp only [BitVec.getLsbD_xor, BitVec.getLsbD_shiftLeft] <;> simp

end Sys2Proof.Machine
end

