-- ==== Sys2Proof/Laws/Decode.lean ====
section
/-!
SUPPORT. The fields of a packed command word and of a packed descriptor.
-/
namespace Sys2Proof

@[simp] theorem opField_packCommand (len : Half) (data : Byte) (rsv op : BitVec 4) :
    opField (packCommand len data rsv op) = op := by
  ext i hi
  simp only [opField, packCommand, BitVec.getElem_extractLsb', BitVec.getLsbD_or, BitVec.getLsbD_shiftLeft, BitVec.getLsbD_setWidth]
  interval_cases i <;> simp

@[simp] theorem rsvField_packCommand (len : Half) (data : Byte) (rsv op : BitVec 4) :
    rsvField (packCommand len data rsv op) = rsv := by
  ext i hi
  simp only [rsvField, packCommand, BitVec.getElem_extractLsb', BitVec.getLsbD_or, BitVec.getLsbD_shiftLeft, BitVec.getLsbD_setWidth]
  interval_cases i <;> simp

@[simp] theorem dataField_packCommand (len : Half) (data : Byte) (rsv op : BitVec 4) :
    dataField (packCommand len data rsv op) = data := by
  ext i hi
  simp only [dataField, packCommand, BitVec.getElem_extractLsb', BitVec.getLsbD_or, BitVec.getLsbD_shiftLeft, BitVec.getLsbD_setWidth]
  interval_cases i <;> simp

@[simp] theorem lenField_packCommand (len : Half) (data : Byte) (rsv op : BitVec 4) :
    lenField (packCommand len data rsv op) = len := by
  ext i hi
  simp only [lenField, packCommand, BitVec.getElem_extractLsb', BitVec.getLsbD_or, BitVec.getLsbD_shiftLeft, BitVec.getLsbD_setWidth]
  interval_cases i <;> simp

end Sys2Proof
end

