-- ==== Sys2Proof/Laws/Memory.lean ====
section
/-!
SUPPORT. The laws of memory: a read after a write, and the canonical form that every memory operation keeps.
-/
namespace Sys2Proof.Machine

/-- A read of the key just written gives the byte written. -/
@[simp] theorem Memory.read_write_same (m : List Host.Cell) (a : Nat) (b : Byte) :
    Memory.read (Memory.write m a b) a = some b := by
  induction m with
  | nil => simp [Memory.write, Memory.read]
  | cons c rest ih =>
    obtain ⟨k, v⟩ := c
    simp only [Memory.write]
    split
    · simp [Memory.read]
    · split
      · simp [Memory.read]
      · rename_i hne
        simp [Memory.read, Ne.symm hne, ih]

/-- A write leaves every other key alone. -/
theorem Memory.read_write_other (m : List Host.Cell) {a x : Nat} (b : Byte) (h : x ≠ a) :
    Memory.read (Memory.write m a b) x = Memory.read m x := by
  induction m with
  | nil => simp [Memory.write, Memory.read, Ne.symm h]
  | cons c rest ih =>
    obtain ⟨k, v⟩ := c
    simp only [Memory.write]
    split
    · simp [Memory.read, Ne.symm h]
    · split
      · rename_i heq
        subst heq
        simp [Memory.read, Ne.symm h]
      · simp [Memory.read, ih]

/-- A cell of the written memory is the new one or an old one. -/
theorem Memory.mem_write {m : List Host.Cell} {a : Nat} {b : Byte} {c : Host.Cell}
    (h : c ∈ Memory.write m a b) : c = (a, b) ∨ c ∈ m := by
  induction m with
  | nil => simpa [Memory.write] using h
  | cons d rest ih =>
    obtain ⟨k, v⟩ := d
    simp only [Memory.write] at h
    split at h
    · simpa using h
    · split at h
      · rcases List.mem_cons.mp h with h | h
        · exact .inl h
        · exact .inr (List.mem_cons_of_mem _ h)
      · rcases List.mem_cons.mp h with h | h
        · exact .inr (h ▸ List.mem_cons_self)
        · exact (ih h).imp_right (List.mem_cons_of_mem _)

/-- A write keeps the addresses strictly rising. -/
theorem Memory.write_rising {m : List Host.Cell} (a : Nat) (b : Byte)
    (h : m.Pairwise (fun x y => x.1 < y.1)) :
    (Memory.write m a b).Pairwise (fun x y => x.1 < y.1) := by
  induction m with
  | nil => simp [Memory.write]
  | cons c rest ih =>
    obtain ⟨k, v⟩ := c
    obtain ⟨hk, hr⟩ := List.pairwise_cons.mp h
    simp only [Memory.write]
    split
    · rename_i hlt
      refine List.pairwise_cons.mpr ⟨fun y hy => ?_, h⟩
      rcases List.mem_cons.mp hy with rfl | hy
      · exact hlt
      · exact Nat.lt_trans hlt (hk y hy)
    · split
      · rename_i heq
        subst heq
        exact List.pairwise_cons.mpr ⟨hk, hr⟩
      · rename_i hle hne
        refine List.pairwise_cons.mpr ⟨fun y hy => ?_, ih hr⟩
        rcases Memory.mem_write hy with rfl | hy
        · exact Nat.lt_of_le_of_ne (Nat.le_of_not_lt hle) (Ne.symm hne)
        · exact hk y hy

/-- A write at a key below 2^32 keeps the canonical form. -/
theorem Memory.write_wf {m : List Host.Cell} {a : Nat} (b : Byte) (ha : a < 2 ^ 32)
    (h : Memory.wf m) : Memory.wf (Memory.write m a b) := by
  refine ⟨Memory.write_rising a b h.1, fun c hc => ?_⟩
  rcases Memory.mem_write hc with rfl | hc
  · exact ha
  · exact h.2 c hc

/-- An address's key is below 2^32. -/
theorem memKey_lt (a : Word) : memKey a < 2 ^ 32 :=
  a.isLt

/-- Two addresses with one key are one address. -/
theorem memKey_injective {a b : Word} : memKey a = memKey b ↔ a = b :=
  BitVec.toNat_inj

/-- `MemRead` of the byte just written, where the memory answers at all. -/
theorem State.memRead_writeByte_same (s : State) (a : Word) (b : Byte) (h : a ∉ s.silent) :
    (s.writeByte a b).memRead a = .ok b := by
  simp [State.memRead, State.writeByte, h]

/-- A write leaves `MemRead` of every other address alone. -/
theorem State.memRead_writeByte_other (s : State) {a x : Word} (b : Byte) (h : x ≠ a) :
    (s.writeByte a b).memRead x = s.memRead x := by
  simp [State.memRead, State.writeByte,
    Memory.read_write_other s.mem b (fun he => h (memKey_injective.mp he))]

/-- `MemRead` depends on the memory alone. -/
theorem State.memRead_congr {s t : State} (hm : t.mem = s.mem) (hs : t.silent = s.silent) (a : Word) :
    t.memRead a = s.memRead a := by
  simp [State.memRead, hm, hs]

end Sys2Proof.Machine
end

