-- ==== Sys2Proof/Laws/State.lean ====
section
/-!
SUPPORT. What each named update of State does to each field: one lemma per field per update.
-/
namespace Sys2Proof.Machine

/-! `respond` -/

@[simp] theorem State.respond_crc (s : State) (r : Response) : (s.respond r).crc = s.crc := rfl
@[simp] theorem State.respond_addr (s : State) (r : Response) : (s.respond r).addr = s.addr := rfl
@[simp] theorem State.respond_errCmd (s : State) (r : Response) : (s.respond r).errCmd = s.errCmd := rfl
@[simp] theorem State.respond_errBusy (s : State) (r : Response) : (s.respond r).errBusy = s.errBusy := rfl
@[simp] theorem State.respond_errMem (s : State) (r : Response) : (s.respond r).errMem = s.errMem := rfl
@[simp] theorem State.respond_ptr (s : State) (r : Response) : (s.respond r).ptr = s.ptr := rfl
@[simp] theorem State.respond_rem (s : State) (r : Response) : (s.respond r).rem = s.rem := rfl
@[simp] theorem State.respond_response (s : State) (r : Response) : (s.respond r).response = some r := rfl
@[simp] theorem State.respond_mem (s : State) (r : Response) : (s.respond r).mem = s.mem := rfl
@[simp] theorem State.respond_silent (s : State) (r : Response) : (s.respond r).silent = s.silent := rfl
@[simp] theorem State.respond_pending (s : State) (r : Response) : (s.respond r).pending = s.pending := rfl
@[simp] theorem State.respond_script (s : State) (r : Response) : (s.respond r).script = s.script := rfl
@[simp] theorem State.respond_hostPc (s : State) (r : Response) : (s.respond r).hostPc = s.hostPc := rfl
@[simp] theorem State.respond_names (s : State) (r : Response) : (s.respond r).names = s.names := rfl
@[simp] theorem State.respond_sched (s : State) (r : Response) : (s.respond r).sched = s.sched := rfl
@[simp] theorem State.respond_winBase (s : State) (r : Response) : (s.respond r).winBase = s.winBase := rfl
@[simp] theorem State.respond_winLen (s : State) (r : Response) : (s.respond r).winLen = s.winLen := rfl
@[simp] theorem State.respond_reads (s : State) (r : Response) : (s.respond r).reads = s.reads := rfl
@[simp] theorem State.respond_memFaulted (s : State) (r : Response) : (s.respond r).memFaulted = s.memFaulted := rfl
@[simp] theorem State.respond_draws (s : State) (r : Response) : (s.respond r).draws = s.draws := rfl

/-! `raise` -/

@[simp] theorem State.raise_crc (s : State) (e : ErrorCode) : (s.raise e).crc = s.crc := by
  cases e <;> rfl
@[simp] theorem State.raise_addr (s : State) (e : ErrorCode) : (s.raise e).addr = s.addr := by
  cases e <;> rfl
@[simp] theorem State.raise_ptr (s : State) (e : ErrorCode) : (s.raise e).ptr = s.ptr := by
  cases e <;> rfl
@[simp] theorem State.raise_rem (s : State) (e : ErrorCode) : (s.raise e).rem = s.rem := by
  cases e <;> rfl
@[simp] theorem State.raise_response (s : State) (e : ErrorCode) : (s.raise e).response = s.response := by
  cases e <;> rfl
@[simp] theorem State.raise_mem (s : State) (e : ErrorCode) : (s.raise e).mem = s.mem := by
  cases e <;> rfl
@[simp] theorem State.raise_silent (s : State) (e : ErrorCode) : (s.raise e).silent = s.silent := by
  cases e <;> rfl
@[simp] theorem State.raise_pending (s : State) (e : ErrorCode) : (s.raise e).pending = s.pending := by
  cases e <;> rfl
@[simp] theorem State.raise_script (s : State) (e : ErrorCode) : (s.raise e).script = s.script := by
  cases e <;> rfl
@[simp] theorem State.raise_hostPc (s : State) (e : ErrorCode) : (s.raise e).hostPc = s.hostPc := by
  cases e <;> rfl
@[simp] theorem State.raise_names (s : State) (e : ErrorCode) : (s.raise e).names = s.names := by
  cases e <;> rfl
@[simp] theorem State.raise_sched (s : State) (e : ErrorCode) : (s.raise e).sched = s.sched := by
  cases e <;> rfl
@[simp] theorem State.raise_winBase (s : State) (e : ErrorCode) : (s.raise e).winBase = s.winBase := by
  cases e <;> rfl
@[simp] theorem State.raise_winLen (s : State) (e : ErrorCode) : (s.raise e).winLen = s.winLen := by
  cases e <;> rfl
@[simp] theorem State.raise_reads (s : State) (e : ErrorCode) : (s.raise e).reads = s.reads := by
  cases e <;> rfl
@[simp] theorem State.raise_memFaulted (s : State) (e : ErrorCode) : (s.raise e).memFaulted = s.memFaulted := by
  cases e <;> rfl
@[simp] theorem State.raise_draws (s : State) (e : ErrorCode) : (s.raise e).draws = s.draws := by
  cases e <;> rfl
@[simp] theorem State.raise_cmd_errCmd (s : State) : (s.raise .cmd).errCmd = true := rfl
@[simp] theorem State.raise_cmd_errBusy (s : State) : (s.raise .cmd).errBusy = s.errBusy := rfl
@[simp] theorem State.raise_cmd_errMem (s : State) : (s.raise .cmd).errMem = s.errMem := rfl
@[simp] theorem State.raise_busy_errCmd (s : State) : (s.raise .busy).errCmd = s.errCmd := rfl
@[simp] theorem State.raise_busy_errBusy (s : State) : (s.raise .busy).errBusy = true := rfl
@[simp] theorem State.raise_busy_errMem (s : State) : (s.raise .busy).errMem = s.errMem := rfl
@[simp] theorem State.raise_mem_errCmd (s : State) : (s.raise .mem).errCmd = s.errCmd := rfl
@[simp] theorem State.raise_mem_errBusy (s : State) : (s.raise .mem).errBusy = s.errBusy := rfl
@[simp] theorem State.raise_mem_errMem (s : State) : (s.raise .mem).errMem = true := rfl

/-! `clearErrors` -/

@[simp] theorem State.clearErrors_crc (s : State) (w : Word) : (s.clearErrors w).crc = s.crc := rfl
@[simp] theorem State.clearErrors_addr (s : State) (w : Word) : (s.clearErrors w).addr = s.addr := rfl
@[simp] theorem State.clearErrors_errCmd (s : State) (w : Word) : (s.clearErrors w).errCmd = stickyAfter w .cmd s.errCmd := rfl
@[simp] theorem State.clearErrors_errBusy (s : State) (w : Word) : (s.clearErrors w).errBusy = stickyAfter w .busy s.errBusy := rfl
@[simp] theorem State.clearErrors_errMem (s : State) (w : Word) : (s.clearErrors w).errMem = stickyAfter w .mem s.errMem := rfl
@[simp] theorem State.clearErrors_ptr (s : State) (w : Word) : (s.clearErrors w).ptr = s.ptr := rfl
@[simp] theorem State.clearErrors_rem (s : State) (w : Word) : (s.clearErrors w).rem = s.rem := rfl
@[simp] theorem State.clearErrors_response (s : State) (w : Word) : (s.clearErrors w).response = s.response := rfl
@[simp] theorem State.clearErrors_mem (s : State) (w : Word) : (s.clearErrors w).mem = s.mem := rfl
@[simp] theorem State.clearErrors_silent (s : State) (w : Word) : (s.clearErrors w).silent = s.silent := rfl
@[simp] theorem State.clearErrors_pending (s : State) (w : Word) : (s.clearErrors w).pending = s.pending := rfl
@[simp] theorem State.clearErrors_script (s : State) (w : Word) : (s.clearErrors w).script = s.script := rfl
@[simp] theorem State.clearErrors_hostPc (s : State) (w : Word) : (s.clearErrors w).hostPc = s.hostPc := rfl
@[simp] theorem State.clearErrors_names (s : State) (w : Word) : (s.clearErrors w).names = s.names := rfl
@[simp] theorem State.clearErrors_sched (s : State) (w : Word) : (s.clearErrors w).sched = s.sched := rfl
@[simp] theorem State.clearErrors_winBase (s : State) (w : Word) : (s.clearErrors w).winBase = s.winBase := rfl
@[simp] theorem State.clearErrors_winLen (s : State) (w : Word) : (s.clearErrors w).winLen = s.winLen := rfl
@[simp] theorem State.clearErrors_reads (s : State) (w : Word) : (s.clearErrors w).reads = s.reads := rfl
@[simp] theorem State.clearErrors_memFaulted (s : State) (w : Word) : (s.clearErrors w).memFaulted = s.memFaulted := rfl
@[simp] theorem State.clearErrors_draws (s : State) (w : Word) : (s.clearErrors w).draws = s.draws := rfl

/-! `loadCrc` -/

@[simp] theorem State.loadCrc_crc (s : State) (c : Half) : (s.loadCrc c).crc = c := rfl
@[simp] theorem State.loadCrc_addr (s : State) (c : Half) : (s.loadCrc c).addr = s.addr := rfl
@[simp] theorem State.loadCrc_errCmd (s : State) (c : Half) : (s.loadCrc c).errCmd = s.errCmd := rfl
@[simp] theorem State.loadCrc_errBusy (s : State) (c : Half) : (s.loadCrc c).errBusy = s.errBusy := rfl
@[simp] theorem State.loadCrc_errMem (s : State) (c : Half) : (s.loadCrc c).errMem = s.errMem := rfl
@[simp] theorem State.loadCrc_ptr (s : State) (c : Half) : (s.loadCrc c).ptr = s.ptr := rfl
@[simp] theorem State.loadCrc_rem (s : State) (c : Half) : (s.loadCrc c).rem = s.rem := rfl
@[simp] theorem State.loadCrc_response (s : State) (c : Half) : (s.loadCrc c).response = s.response := rfl
@[simp] theorem State.loadCrc_mem (s : State) (c : Half) : (s.loadCrc c).mem = s.mem := rfl
@[simp] theorem State.loadCrc_silent (s : State) (c : Half) : (s.loadCrc c).silent = s.silent := rfl
@[simp] theorem State.loadCrc_pending (s : State) (c : Half) : (s.loadCrc c).pending = s.pending := rfl
@[simp] theorem State.loadCrc_script (s : State) (c : Half) : (s.loadCrc c).script = s.script := rfl
@[simp] theorem State.loadCrc_hostPc (s : State) (c : Half) : (s.loadCrc c).hostPc = s.hostPc := rfl
@[simp] theorem State.loadCrc_names (s : State) (c : Half) : (s.loadCrc c).names = s.names := rfl
@[simp] theorem State.loadCrc_sched (s : State) (c : Half) : (s.loadCrc c).sched = s.sched := rfl
@[simp] theorem State.loadCrc_winBase (s : State) (c : Half) : (s.loadCrc c).winBase = s.winBase := rfl
@[simp] theorem State.loadCrc_winLen (s : State) (c : Half) : (s.loadCrc c).winLen = s.winLen := rfl
@[simp] theorem State.loadCrc_reads (s : State) (c : Half) : (s.loadCrc c).reads = s.reads := rfl
@[simp] theorem State.loadCrc_memFaulted (s : State) (c : Half) : (s.loadCrc c).memFaulted = s.memFaulted := rfl
@[simp] theorem State.loadCrc_draws (s : State) (c : Half) : (s.loadCrc c).draws = s.draws := rfl

/-! `loadAddr` -/

@[simp] theorem State.loadAddr_crc (s : State) (w : Word) : (s.loadAddr w).crc = s.crc := rfl
@[simp] theorem State.loadAddr_addr (s : State) (w : Word) : (s.loadAddr w).addr = w := rfl
@[simp] theorem State.loadAddr_errCmd (s : State) (w : Word) : (s.loadAddr w).errCmd = s.errCmd := rfl
@[simp] theorem State.loadAddr_errBusy (s : State) (w : Word) : (s.loadAddr w).errBusy = s.errBusy := rfl
@[simp] theorem State.loadAddr_errMem (s : State) (w : Word) : (s.loadAddr w).errMem = s.errMem := rfl
@[simp] theorem State.loadAddr_ptr (s : State) (w : Word) : (s.loadAddr w).ptr = s.ptr := rfl
@[simp] theorem State.loadAddr_rem (s : State) (w : Word) : (s.loadAddr w).rem = s.rem := rfl
@[simp] theorem State.loadAddr_response (s : State) (w : Word) : (s.loadAddr w).response = s.response := rfl
@[simp] theorem State.loadAddr_mem (s : State) (w : Word) : (s.loadAddr w).mem = s.mem := rfl
@[simp] theorem State.loadAddr_silent (s : State) (w : Word) : (s.loadAddr w).silent = s.silent := rfl
@[simp] theorem State.loadAddr_pending (s : State) (w : Word) : (s.loadAddr w).pending = s.pending := rfl
@[simp] theorem State.loadAddr_script (s : State) (w : Word) : (s.loadAddr w).script = s.script := rfl
@[simp] theorem State.loadAddr_hostPc (s : State) (w : Word) : (s.loadAddr w).hostPc = s.hostPc := rfl
@[simp] theorem State.loadAddr_names (s : State) (w : Word) : (s.loadAddr w).names = s.names := rfl
@[simp] theorem State.loadAddr_sched (s : State) (w : Word) : (s.loadAddr w).sched = s.sched := rfl
@[simp] theorem State.loadAddr_winBase (s : State) (w : Word) : (s.loadAddr w).winBase = s.winBase := rfl
@[simp] theorem State.loadAddr_winLen (s : State) (w : Word) : (s.loadAddr w).winLen = s.winLen := rfl
@[simp] theorem State.loadAddr_reads (s : State) (w : Word) : (s.loadAddr w).reads = s.reads := rfl
@[simp] theorem State.loadAddr_memFaulted (s : State) (w : Word) : (s.loadAddr w).memFaulted = s.memFaulted := rfl
@[simp] theorem State.loadAddr_draws (s : State) (w : Word) : (s.loadAddr w).draws = s.draws := rfl

/-! `startWindow` -/

@[simp] theorem State.startWindow_crc (s : State) (n : Half) : (s.startWindow n).crc = Config.crcInit := rfl
@[simp] theorem State.startWindow_addr (s : State) (n : Half) : (s.startWindow n).addr = s.addr := rfl
@[simp] theorem State.startWindow_errCmd (s : State) (n : Half) : (s.startWindow n).errCmd = s.errCmd := rfl
@[simp] theorem State.startWindow_errBusy (s : State) (n : Half) : (s.startWindow n).errBusy = s.errBusy := rfl
@[simp] theorem State.startWindow_errMem (s : State) (n : Half) : (s.startWindow n).errMem = s.errMem := rfl
@[simp] theorem State.startWindow_ptr (s : State) (n : Half) : (s.startWindow n).ptr = s.addr := rfl
@[simp] theorem State.startWindow_rem (s : State) (n : Half) : (s.startWindow n).rem = n := rfl
@[simp] theorem State.startWindow_response (s : State) (n : Half) : (s.startWindow n).response = s.response := rfl
@[simp] theorem State.startWindow_mem (s : State) (n : Half) : (s.startWindow n).mem = s.mem := rfl
@[simp] theorem State.startWindow_silent (s : State) (n : Half) : (s.startWindow n).silent = s.silent := rfl
@[simp] theorem State.startWindow_pending (s : State) (n : Half) : (s.startWindow n).pending = s.pending := rfl
@[simp] theorem State.startWindow_script (s : State) (n : Half) : (s.startWindow n).script = s.script := rfl
@[simp] theorem State.startWindow_hostPc (s : State) (n : Half) : (s.startWindow n).hostPc = s.hostPc := rfl
@[simp] theorem State.startWindow_names (s : State) (n : Half) : (s.startWindow n).names = s.names := rfl
@[simp] theorem State.startWindow_sched (s : State) (n : Half) : (s.startWindow n).sched = s.sched := rfl
@[simp] theorem State.startWindow_winBase (s : State) (n : Half) : (s.startWindow n).winBase = s.addr := rfl
@[simp] theorem State.startWindow_winLen (s : State) (n : Half) : (s.startWindow n).winLen = n := rfl
@[simp] theorem State.startWindow_reads (s : State) (n : Half) : (s.startWindow n).reads = s.reads := rfl
@[simp] theorem State.startWindow_memFaulted (s : State) (n : Half) : (s.startWindow n).memFaulted = s.memFaulted := rfl
@[simp] theorem State.startWindow_draws (s : State) (n : Half) : (s.startWindow n).draws = s.draws := rfl

/-! `logRead` -/

@[simp] theorem State.logRead_crc (s : State) (a : Word) : (s.logRead a).crc = s.crc := rfl
@[simp] theorem State.logRead_addr (s : State) (a : Word) : (s.logRead a).addr = s.addr := rfl
@[simp] theorem State.logRead_errCmd (s : State) (a : Word) : (s.logRead a).errCmd = s.errCmd := rfl
@[simp] theorem State.logRead_errBusy (s : State) (a : Word) : (s.logRead a).errBusy = s.errBusy := rfl
@[simp] theorem State.logRead_errMem (s : State) (a : Word) : (s.logRead a).errMem = s.errMem := rfl
@[simp] theorem State.logRead_ptr (s : State) (a : Word) : (s.logRead a).ptr = s.ptr := rfl
@[simp] theorem State.logRead_rem (s : State) (a : Word) : (s.logRead a).rem = s.rem := rfl
@[simp] theorem State.logRead_response (s : State) (a : Word) : (s.logRead a).response = s.response := rfl
@[simp] theorem State.logRead_mem (s : State) (a : Word) : (s.logRead a).mem = s.mem := rfl
@[simp] theorem State.logRead_silent (s : State) (a : Word) : (s.logRead a).silent = s.silent := rfl
@[simp] theorem State.logRead_pending (s : State) (a : Word) : (s.logRead a).pending = s.pending := rfl
@[simp] theorem State.logRead_script (s : State) (a : Word) : (s.logRead a).script = s.script := rfl
@[simp] theorem State.logRead_hostPc (s : State) (a : Word) : (s.logRead a).hostPc = s.hostPc := rfl
@[simp] theorem State.logRead_names (s : State) (a : Word) : (s.logRead a).names = s.names := rfl
@[simp] theorem State.logRead_sched (s : State) (a : Word) : (s.logRead a).sched = s.sched := rfl
@[simp] theorem State.logRead_winBase (s : State) (a : Word) : (s.logRead a).winBase = s.winBase := rfl
@[simp] theorem State.logRead_winLen (s : State) (a : Word) : (s.logRead a).winLen = s.winLen := rfl
@[simp] theorem State.logRead_reads (s : State) (a : Word) : (s.logRead a).reads = a :: s.reads := rfl
@[simp] theorem State.logRead_memFaulted (s : State) (a : Word) : (s.logRead a).memFaulted = s.memFaulted := rfl
@[simp] theorem State.logRead_draws (s : State) (a : Word) : (s.logRead a).draws = s.draws := rfl

/-! `foldByte` -/

@[simp] theorem State.foldByte_crc (s : State) (b : Byte) : (s.foldByte b).crc = step8 s.crc b := rfl
@[simp] theorem State.foldByte_addr (s : State) (b : Byte) : (s.foldByte b).addr = s.addr := rfl
@[simp] theorem State.foldByte_errCmd (s : State) (b : Byte) : (s.foldByte b).errCmd = s.errCmd := rfl
@[simp] theorem State.foldByte_errBusy (s : State) (b : Byte) : (s.foldByte b).errBusy = s.errBusy := rfl
@[simp] theorem State.foldByte_errMem (s : State) (b : Byte) : (s.foldByte b).errMem = s.errMem := rfl
@[simp] theorem State.foldByte_ptr (s : State) (b : Byte) : (s.foldByte b).ptr = nextAddr s.ptr := rfl
@[simp] theorem State.foldByte_rem (s : State) (b : Byte) : (s.foldByte b).rem = s.rem - 1 := rfl
@[simp] theorem State.foldByte_response (s : State) (b : Byte) : (s.foldByte b).response = s.response := rfl
@[simp] theorem State.foldByte_mem (s : State) (b : Byte) : (s.foldByte b).mem = s.mem := rfl
@[simp] theorem State.foldByte_silent (s : State) (b : Byte) : (s.foldByte b).silent = s.silent := rfl
@[simp] theorem State.foldByte_pending (s : State) (b : Byte) : (s.foldByte b).pending = s.pending := rfl
@[simp] theorem State.foldByte_script (s : State) (b : Byte) : (s.foldByte b).script = s.script := rfl
@[simp] theorem State.foldByte_hostPc (s : State) (b : Byte) : (s.foldByte b).hostPc = s.hostPc := rfl
@[simp] theorem State.foldByte_names (s : State) (b : Byte) : (s.foldByte b).names = s.names := rfl
@[simp] theorem State.foldByte_sched (s : State) (b : Byte) : (s.foldByte b).sched = s.sched := rfl
@[simp] theorem State.foldByte_winBase (s : State) (b : Byte) : (s.foldByte b).winBase = s.winBase := rfl
@[simp] theorem State.foldByte_winLen (s : State) (b : Byte) : (s.foldByte b).winLen = s.winLen := rfl
@[simp] theorem State.foldByte_reads (s : State) (b : Byte) : (s.foldByte b).reads = s.reads := rfl
@[simp] theorem State.foldByte_memFaulted (s : State) (b : Byte) : (s.foldByte b).memFaulted = s.memFaulted := rfl
@[simp] theorem State.foldByte_draws (s : State) (b : Byte) : (s.foldByte b).draws = s.draws := rfl

/-! `countDraw` -/

@[simp] theorem State.countDraw_crc (s : State) : s.countDraw.crc = s.crc := rfl
@[simp] theorem State.countDraw_addr (s : State) : s.countDraw.addr = s.addr := rfl
@[simp] theorem State.countDraw_errCmd (s : State) : s.countDraw.errCmd = s.errCmd := rfl
@[simp] theorem State.countDraw_errBusy (s : State) : s.countDraw.errBusy = s.errBusy := rfl
@[simp] theorem State.countDraw_errMem (s : State) : s.countDraw.errMem = s.errMem := rfl
@[simp] theorem State.countDraw_ptr (s : State) : s.countDraw.ptr = s.ptr := rfl
@[simp] theorem State.countDraw_rem (s : State) : s.countDraw.rem = s.rem := rfl
@[simp] theorem State.countDraw_response (s : State) : s.countDraw.response = s.response := rfl
@[simp] theorem State.countDraw_mem (s : State) : s.countDraw.mem = s.mem := rfl
@[simp] theorem State.countDraw_silent (s : State) : s.countDraw.silent = s.silent := rfl
@[simp] theorem State.countDraw_pending (s : State) : s.countDraw.pending = s.pending := rfl
@[simp] theorem State.countDraw_script (s : State) : s.countDraw.script = s.script := rfl
@[simp] theorem State.countDraw_hostPc (s : State) : s.countDraw.hostPc = s.hostPc := rfl
@[simp] theorem State.countDraw_names (s : State) : s.countDraw.names = s.names := rfl
@[simp] theorem State.countDraw_sched (s : State) : s.countDraw.sched = s.sched := rfl
@[simp] theorem State.countDraw_winBase (s : State) : s.countDraw.winBase = s.winBase := rfl
@[simp] theorem State.countDraw_winLen (s : State) : s.countDraw.winLen = s.winLen := rfl
@[simp] theorem State.countDraw_reads (s : State) : s.countDraw.reads = s.reads := rfl
@[simp] theorem State.countDraw_memFaulted (s : State) : s.countDraw.memFaulted = s.memFaulted := rfl
@[simp] theorem State.countDraw_draws (s : State) : s.countDraw.draws = s.draws + 1 := rfl

/-! `abandon` -/

@[simp] theorem State.abandon_crc (s : State) : s.abandon.crc = Config.freeCrcAfterError s.draws := rfl
@[simp] theorem State.abandon_addr (s : State) : s.abandon.addr = s.addr := rfl
@[simp] theorem State.abandon_errCmd (s : State) : s.abandon.errCmd = s.errCmd := rfl
@[simp] theorem State.abandon_errBusy (s : State) : s.abandon.errBusy = s.errBusy := rfl
@[simp] theorem State.abandon_errMem (s : State) : s.abandon.errMem = s.errMem := rfl
@[simp] theorem State.abandon_ptr (s : State) : s.abandon.ptr = Config.freePtrAfterError s.draws := rfl
@[simp] theorem State.abandon_rem (s : State) : s.abandon.rem = 0 := rfl
@[simp] theorem State.abandon_response (s : State) : s.abandon.response = s.response := rfl
@[simp] theorem State.abandon_mem (s : State) : s.abandon.mem = s.mem := rfl
@[simp] theorem State.abandon_silent (s : State) : s.abandon.silent = s.silent := rfl
@[simp] theorem State.abandon_pending (s : State) : s.abandon.pending = s.pending := rfl
@[simp] theorem State.abandon_script (s : State) : s.abandon.script = s.script := rfl
@[simp] theorem State.abandon_hostPc (s : State) : s.abandon.hostPc = s.hostPc := rfl
@[simp] theorem State.abandon_names (s : State) : s.abandon.names = s.names := rfl
@[simp] theorem State.abandon_sched (s : State) : s.abandon.sched = s.sched := rfl
@[simp] theorem State.abandon_winBase (s : State) : s.abandon.winBase = s.winBase := rfl
@[simp] theorem State.abandon_winLen (s : State) : s.abandon.winLen = s.winLen := rfl
@[simp] theorem State.abandon_reads (s : State) : s.abandon.reads = s.reads := rfl
@[simp] theorem State.abandon_memFaulted (s : State) : s.abandon.memFaulted = true := rfl
@[simp] theorem State.abandon_draws (s : State) : s.abandon.draws = s.draws := rfl

/-! `memoryError` -/

@[simp] theorem State.memoryError_crc (s : State) : s.memoryError.crc = Config.freeCrcAfterError s.draws := rfl
@[simp] theorem State.memoryError_addr (s : State) : s.memoryError.addr = s.addr := rfl
@[simp] theorem State.memoryError_errCmd (s : State) : s.memoryError.errCmd = s.errCmd := rfl
@[simp] theorem State.memoryError_errBusy (s : State) : s.memoryError.errBusy = s.errBusy := rfl
@[simp] theorem State.memoryError_errMem (s : State) : s.memoryError.errMem = true := rfl
@[simp] theorem State.memoryError_ptr (s : State) : s.memoryError.ptr = Config.freePtrAfterError s.draws := rfl
@[simp] theorem State.memoryError_rem (s : State) : s.memoryError.rem = 0 := rfl
@[simp] theorem State.memoryError_response (s : State) : s.memoryError.response = s.response := rfl
@[simp] theorem State.memoryError_mem (s : State) : s.memoryError.mem = s.mem := rfl
@[simp] theorem State.memoryError_silent (s : State) : s.memoryError.silent = s.silent := rfl
@[simp] theorem State.memoryError_pending (s : State) : s.memoryError.pending = s.pending := rfl
@[simp] theorem State.memoryError_script (s : State) : s.memoryError.script = s.script := rfl
@[simp] theorem State.memoryError_hostPc (s : State) : s.memoryError.hostPc = s.hostPc := rfl
@[simp] theorem State.memoryError_names (s : State) : s.memoryError.names = s.names := rfl
@[simp] theorem State.memoryError_sched (s : State) : s.memoryError.sched = s.sched := rfl
@[simp] theorem State.memoryError_winBase (s : State) : s.memoryError.winBase = s.winBase := rfl
@[simp] theorem State.memoryError_winLen (s : State) : s.memoryError.winLen = s.winLen := rfl
@[simp] theorem State.memoryError_reads (s : State) : s.memoryError.reads = s.reads := rfl
@[simp] theorem State.memoryError_memFaulted (s : State) : s.memoryError.memFaulted = true := rfl
@[simp] theorem State.memoryError_draws (s : State) : s.memoryError.draws = s.draws + 1 := rfl

/-! `resetBlock` -/

@[simp] theorem State.resetBlock_crc (s : State) : s.resetBlock.crc = Config.crcInit := rfl
@[simp] theorem State.resetBlock_addr (s : State) : s.resetBlock.addr = 0 := rfl
@[simp] theorem State.resetBlock_errCmd (s : State) : s.resetBlock.errCmd = false := rfl
@[simp] theorem State.resetBlock_errBusy (s : State) : s.resetBlock.errBusy = false := rfl
@[simp] theorem State.resetBlock_errMem (s : State) : s.resetBlock.errMem = false := rfl
@[simp] theorem State.resetBlock_ptr (s : State) : s.resetBlock.ptr = 0 := rfl
@[simp] theorem State.resetBlock_rem (s : State) : s.resetBlock.rem = 0 := rfl
@[simp] theorem State.resetBlock_response (s : State) : s.resetBlock.response = s.response := rfl
@[simp] theorem State.resetBlock_mem (s : State) : s.resetBlock.mem = s.mem := rfl
@[simp] theorem State.resetBlock_silent (s : State) : s.resetBlock.silent = s.silent := rfl
@[simp] theorem State.resetBlock_pending (s : State) : s.resetBlock.pending = s.pending := rfl
@[simp] theorem State.resetBlock_script (s : State) : s.resetBlock.script = s.script := rfl
@[simp] theorem State.resetBlock_hostPc (s : State) : s.resetBlock.hostPc = s.hostPc := rfl
@[simp] theorem State.resetBlock_names (s : State) : s.resetBlock.names = s.names := rfl
@[simp] theorem State.resetBlock_sched (s : State) : s.resetBlock.sched = s.sched := rfl
@[simp] theorem State.resetBlock_winBase (s : State) : s.resetBlock.winBase = 0 := rfl
@[simp] theorem State.resetBlock_winLen (s : State) : s.resetBlock.winLen = 0 := rfl
@[simp] theorem State.resetBlock_reads (s : State) : s.resetBlock.reads = s.reads := rfl
@[simp] theorem State.resetBlock_memFaulted (s : State) : s.resetBlock.memFaulted = s.memFaulted := rfl
@[simp] theorem State.resetBlock_draws (s : State) : s.resetBlock.draws = s.draws := rfl

/-! `writeByte` -/

@[simp] theorem State.writeByte_crc (s : State) (a : Word) (b : Byte) : (s.writeByte a b).crc = s.crc := rfl
@[simp] theorem State.writeByte_addr (s : State) (a : Word) (b : Byte) : (s.writeByte a b).addr = s.addr := rfl
@[simp] theorem State.writeByte_errCmd (s : State) (a : Word) (b : Byte) : (s.writeByte a b).errCmd = s.errCmd := rfl
@[simp] theorem State.writeByte_errBusy (s : State) (a : Word) (b : Byte) : (s.writeByte a b).errBusy = s.errBusy := rfl
@[simp] theorem State.writeByte_errMem (s : State) (a : Word) (b : Byte) : (s.writeByte a b).errMem = s.errMem := rfl
@[simp] theorem State.writeByte_ptr (s : State) (a : Word) (b : Byte) : (s.writeByte a b).ptr = s.ptr := rfl
@[simp] theorem State.writeByte_rem (s : State) (a : Word) (b : Byte) : (s.writeByte a b).rem = s.rem := rfl
@[simp] theorem State.writeByte_response (s : State) (a : Word) (b : Byte) : (s.writeByte a b).response = s.response := rfl
@[simp] theorem State.writeByte_mem (s : State) (a : Word) (b : Byte) : (s.writeByte a b).mem = Memory.write s.mem (memKey a) b := rfl
@[simp] theorem State.writeByte_silent (s : State) (a : Word) (b : Byte) : (s.writeByte a b).silent = s.silent := rfl
@[simp] theorem State.writeByte_pending (s : State) (a : Word) (b : Byte) : (s.writeByte a b).pending = s.pending := rfl
@[simp] theorem State.writeByte_script (s : State) (a : Word) (b : Byte) : (s.writeByte a b).script = s.script := rfl
@[simp] theorem State.writeByte_hostPc (s : State) (a : Word) (b : Byte) : (s.writeByte a b).hostPc = s.hostPc := rfl
@[simp] theorem State.writeByte_names (s : State) (a : Word) (b : Byte) : (s.writeByte a b).names = s.names := rfl
@[simp] theorem State.writeByte_sched (s : State) (a : Word) (b : Byte) : (s.writeByte a b).sched = s.sched := rfl
@[simp] theorem State.writeByte_winBase (s : State) (a : Word) (b : Byte) : (s.writeByte a b).winBase = s.winBase := rfl
@[simp] theorem State.writeByte_winLen (s : State) (a : Word) (b : Byte) : (s.writeByte a b).winLen = s.winLen := rfl
@[simp] theorem State.writeByte_reads (s : State) (a : Word) (b : Byte) : (s.writeByte a b).reads = s.reads := rfl
@[simp] theorem State.writeByte_memFaulted (s : State) (a : Word) (b : Byte) : (s.writeByte a b).memFaulted = s.memFaulted := rfl
@[simp] theorem State.writeByte_draws (s : State) (a : Word) (b : Byte) : (s.writeByte a b).draws = s.draws := rfl

/-! `postStore` -/

@[simp] theorem State.postStore_crc (s : State) (a : Word) (b : Byte) : (s.postStore a b).crc = s.crc := rfl
@[simp] theorem State.postStore_addr (s : State) (a : Word) (b : Byte) : (s.postStore a b).addr = s.addr := rfl
@[simp] theorem State.postStore_errCmd (s : State) (a : Word) (b : Byte) : (s.postStore a b).errCmd = s.errCmd := rfl
@[simp] theorem State.postStore_errBusy (s : State) (a : Word) (b : Byte) : (s.postStore a b).errBusy = s.errBusy := rfl
@[simp] theorem State.postStore_errMem (s : State) (a : Word) (b : Byte) : (s.postStore a b).errMem = s.errMem := rfl
@[simp] theorem State.postStore_ptr (s : State) (a : Word) (b : Byte) : (s.postStore a b).ptr = s.ptr := rfl
@[simp] theorem State.postStore_rem (s : State) (a : Word) (b : Byte) : (s.postStore a b).rem = s.rem := rfl
@[simp] theorem State.postStore_response (s : State) (a : Word) (b : Byte) : (s.postStore a b).response = s.response := rfl
@[simp] theorem State.postStore_mem (s : State) (a : Word) (b : Byte) : (s.postStore a b).mem = s.mem := rfl
@[simp] theorem State.postStore_silent (s : State) (a : Word) (b : Byte) : (s.postStore a b).silent = s.silent := rfl
@[simp] theorem State.postStore_pending (s : State) (a : Word) (b : Byte) : (s.postStore a b).pending = s.pending ++ [(a, b)] := rfl
@[simp] theorem State.postStore_script (s : State) (a : Word) (b : Byte) : (s.postStore a b).script = s.script := rfl
@[simp] theorem State.postStore_hostPc (s : State) (a : Word) (b : Byte) : (s.postStore a b).hostPc = s.hostPc := rfl
@[simp] theorem State.postStore_names (s : State) (a : Word) (b : Byte) : (s.postStore a b).names = s.names := rfl
@[simp] theorem State.postStore_sched (s : State) (a : Word) (b : Byte) : (s.postStore a b).sched = s.sched := rfl
@[simp] theorem State.postStore_winBase (s : State) (a : Word) (b : Byte) : (s.postStore a b).winBase = s.winBase := rfl
@[simp] theorem State.postStore_winLen (s : State) (a : Word) (b : Byte) : (s.postStore a b).winLen = s.winLen := rfl
@[simp] theorem State.postStore_reads (s : State) (a : Word) (b : Byte) : (s.postStore a b).reads = s.reads := rfl
@[simp] theorem State.postStore_memFaulted (s : State) (a : Word) (b : Byte) : (s.postStore a b).memFaulted = s.memFaulted := rfl
@[simp] theorem State.postStore_draws (s : State) (a : Word) (b : Byte) : (s.postStore a b).draws = s.draws := rfl

/-! `setPending` -/

@[simp] theorem State.setPending_crc (s : State) (p : List (Word × Byte)) : (s.setPending p).crc = s.crc := rfl
@[simp] theorem State.setPending_addr (s : State) (p : List (Word × Byte)) : (s.setPending p).addr = s.addr := rfl
@[simp] theorem State.setPending_errCmd (s : State) (p : List (Word × Byte)) : (s.setPending p).errCmd = s.errCmd := rfl
@[simp] theorem State.setPending_errBusy (s : State) (p : List (Word × Byte)) : (s.setPending p).errBusy = s.errBusy := rfl
@[simp] theorem State.setPending_errMem (s : State) (p : List (Word × Byte)) : (s.setPending p).errMem = s.errMem := rfl
@[simp] theorem State.setPending_ptr (s : State) (p : List (Word × Byte)) : (s.setPending p).ptr = s.ptr := rfl
@[simp] theorem State.setPending_rem (s : State) (p : List (Word × Byte)) : (s.setPending p).rem = s.rem := rfl
@[simp] theorem State.setPending_response (s : State) (p : List (Word × Byte)) : (s.setPending p).response = s.response := rfl
@[simp] theorem State.setPending_mem (s : State) (p : List (Word × Byte)) : (s.setPending p).mem = s.mem := rfl
@[simp] theorem State.setPending_silent (s : State) (p : List (Word × Byte)) : (s.setPending p).silent = s.silent := rfl
@[simp] theorem State.setPending_pending (s : State) (p : List (Word × Byte)) : (s.setPending p).pending = p := rfl
@[simp] theorem State.setPending_script (s : State) (p : List (Word × Byte)) : (s.setPending p).script = s.script := rfl
@[simp] theorem State.setPending_hostPc (s : State) (p : List (Word × Byte)) : (s.setPending p).hostPc = s.hostPc := rfl
@[simp] theorem State.setPending_names (s : State) (p : List (Word × Byte)) : (s.setPending p).names = s.names := rfl
@[simp] theorem State.setPending_sched (s : State) (p : List (Word × Byte)) : (s.setPending p).sched = s.sched := rfl
@[simp] theorem State.setPending_winBase (s : State) (p : List (Word × Byte)) : (s.setPending p).winBase = s.winBase := rfl
@[simp] theorem State.setPending_winLen (s : State) (p : List (Word × Byte)) : (s.setPending p).winLen = s.winLen := rfl
@[simp] theorem State.setPending_reads (s : State) (p : List (Word × Byte)) : (s.setPending p).reads = s.reads := rfl
@[simp] theorem State.setPending_memFaulted (s : State) (p : List (Word × Byte)) : (s.setPending p).memFaulted = s.memFaulted := rfl
@[simp] theorem State.setPending_draws (s : State) (p : List (Word × Byte)) : (s.setPending p).draws = s.draws := rfl

/-! `setHostPc` -/

@[simp] theorem State.setHostPc_crc (s : State) (pc : Nat) : (s.setHostPc pc).crc = s.crc := rfl
@[simp] theorem State.setHostPc_addr (s : State) (pc : Nat) : (s.setHostPc pc).addr = s.addr := rfl
@[simp] theorem State.setHostPc_errCmd (s : State) (pc : Nat) : (s.setHostPc pc).errCmd = s.errCmd := rfl
@[simp] theorem State.setHostPc_errBusy (s : State) (pc : Nat) : (s.setHostPc pc).errBusy = s.errBusy := rfl
@[simp] theorem State.setHostPc_errMem (s : State) (pc : Nat) : (s.setHostPc pc).errMem = s.errMem := rfl
@[simp] theorem State.setHostPc_ptr (s : State) (pc : Nat) : (s.setHostPc pc).ptr = s.ptr := rfl
@[simp] theorem State.setHostPc_rem (s : State) (pc : Nat) : (s.setHostPc pc).rem = s.rem := rfl
@[simp] theorem State.setHostPc_response (s : State) (pc : Nat) : (s.setHostPc pc).response = s.response := rfl
@[simp] theorem State.setHostPc_mem (s : State) (pc : Nat) : (s.setHostPc pc).mem = s.mem := rfl
@[simp] theorem State.setHostPc_silent (s : State) (pc : Nat) : (s.setHostPc pc).silent = s.silent := rfl
@[simp] theorem State.setHostPc_pending (s : State) (pc : Nat) : (s.setHostPc pc).pending = s.pending := rfl
@[simp] theorem State.setHostPc_script (s : State) (pc : Nat) : (s.setHostPc pc).script = s.script := rfl
@[simp] theorem State.setHostPc_hostPc (s : State) (pc : Nat) : (s.setHostPc pc).hostPc = pc := rfl
@[simp] theorem State.setHostPc_names (s : State) (pc : Nat) : (s.setHostPc pc).names = s.names := rfl
@[simp] theorem State.setHostPc_sched (s : State) (pc : Nat) : (s.setHostPc pc).sched = s.sched := rfl
@[simp] theorem State.setHostPc_winBase (s : State) (pc : Nat) : (s.setHostPc pc).winBase = s.winBase := rfl
@[simp] theorem State.setHostPc_winLen (s : State) (pc : Nat) : (s.setHostPc pc).winLen = s.winLen := rfl
@[simp] theorem State.setHostPc_reads (s : State) (pc : Nat) : (s.setHostPc pc).reads = s.reads := rfl
@[simp] theorem State.setHostPc_memFaulted (s : State) (pc : Nat) : (s.setHostPc pc).memFaulted = s.memFaulted := rfl
@[simp] theorem State.setHostPc_draws (s : State) (pc : Nat) : (s.setHostPc pc).draws = s.draws := rfl

/-! `setSched` -/

@[simp] theorem State.setSched_crc (s : State) (es : List Event) : (s.setSched es).crc = s.crc := rfl
@[simp] theorem State.setSched_addr (s : State) (es : List Event) : (s.setSched es).addr = s.addr := rfl
@[simp] theorem State.setSched_errCmd (s : State) (es : List Event) : (s.setSched es).errCmd = s.errCmd := rfl
@[simp] theorem State.setSched_errBusy (s : State) (es : List Event) : (s.setSched es).errBusy = s.errBusy := rfl
@[simp] theorem State.setSched_errMem (s : State) (es : List Event) : (s.setSched es).errMem = s.errMem := rfl
@[simp] theorem State.setSched_ptr (s : State) (es : List Event) : (s.setSched es).ptr = s.ptr := rfl
@[simp] theorem State.setSched_rem (s : State) (es : List Event) : (s.setSched es).rem = s.rem := rfl
@[simp] theorem State.setSched_response (s : State) (es : List Event) : (s.setSched es).response = s.response := rfl
@[simp] theorem State.setSched_mem (s : State) (es : List Event) : (s.setSched es).mem = s.mem := rfl
@[simp] theorem State.setSched_silent (s : State) (es : List Event) : (s.setSched es).silent = s.silent := rfl
@[simp] theorem State.setSched_pending (s : State) (es : List Event) : (s.setSched es).pending = s.pending := rfl
@[simp] theorem State.setSched_script (s : State) (es : List Event) : (s.setSched es).script = s.script := rfl
@[simp] theorem State.setSched_hostPc (s : State) (es : List Event) : (s.setSched es).hostPc = s.hostPc := rfl
@[simp] theorem State.setSched_names (s : State) (es : List Event) : (s.setSched es).names = s.names := rfl
@[simp] theorem State.setSched_sched (s : State) (es : List Event) : (s.setSched es).sched = es := rfl
@[simp] theorem State.setSched_winBase (s : State) (es : List Event) : (s.setSched es).winBase = s.winBase := rfl
@[simp] theorem State.setSched_winLen (s : State) (es : List Event) : (s.setSched es).winLen = s.winLen := rfl
@[simp] theorem State.setSched_reads (s : State) (es : List Event) : (s.setSched es).reads = s.reads := rfl
@[simp] theorem State.setSched_memFaulted (s : State) (es : List Event) : (s.setSched es).memFaulted = s.memFaulted := rfl
@[simp] theorem State.setSched_draws (s : State) (es : List Event) : (s.setSched es).draws = s.draws := rfl

/-! `bindName` writes only `names`. -/

@[simp] theorem State.bindName_crc (s : State) (dst : Option Nat) : (s.bindName dst).crc = s.crc := by
  unfold State.bindName; (repeat' split) <;> rfl
@[simp] theorem State.bindName_addr (s : State) (dst : Option Nat) : (s.bindName dst).addr = s.addr := by
  unfold State.bindName; (repeat' split) <;> rfl
@[simp] theorem State.bindName_errCmd (s : State) (dst : Option Nat) : (s.bindName dst).errCmd = s.errCmd := by
  unfold State.bindName; (repeat' split) <;> rfl
@[simp] theorem State.bindName_errBusy (s : State) (dst : Option Nat) : (s.bindName dst).errBusy = s.errBusy := by
  unfold State.bindName; (repeat' split) <;> rfl
@[simp] theorem State.bindName_errMem (s : State) (dst : Option Nat) : (s.bindName dst).errMem = s.errMem := by
  unfold State.bindName; (repeat' split) <;> rfl
@[simp] theorem State.bindName_ptr (s : State) (dst : Option Nat) : (s.bindName dst).ptr = s.ptr := by
  unfold State.bindName; (repeat' split) <;> rfl
@[simp] theorem State.bindName_rem (s : State) (dst : Option Nat) : (s.bindName dst).rem = s.rem := by
  unfold State.bindName; (repeat' split) <;> rfl
@[simp] theorem State.bindName_response (s : State) (dst : Option Nat) : (s.bindName dst).response = s.response := by
  unfold State.bindName; (repeat' split) <;> rfl
@[simp] theorem State.bindName_mem (s : State) (dst : Option Nat) : (s.bindName dst).mem = s.mem := by
  unfold State.bindName; (repeat' split) <;> rfl
@[simp] theorem State.bindName_silent (s : State) (dst : Option Nat) : (s.bindName dst).silent = s.silent := by
  unfold State.bindName; (repeat' split) <;> rfl
@[simp] theorem State.bindName_pending (s : State) (dst : Option Nat) : (s.bindName dst).pending = s.pending := by
  unfold State.bindName; (repeat' split) <;> rfl
@[simp] theorem State.bindName_script (s : State) (dst : Option Nat) : (s.bindName dst).script = s.script := by
  unfold State.bindName; (repeat' split) <;> rfl
@[simp] theorem State.bindName_hostPc (s : State) (dst : Option Nat) : (s.bindName dst).hostPc = s.hostPc := by
  unfold State.bindName; (repeat' split) <;> rfl
@[simp] theorem State.bindName_sched (s : State) (dst : Option Nat) : (s.bindName dst).sched = s.sched := by
  unfold State.bindName; (repeat' split) <;> rfl
@[simp] theorem State.bindName_winBase (s : State) (dst : Option Nat) : (s.bindName dst).winBase = s.winBase := by
  unfold State.bindName; (repeat' split) <;> rfl
@[simp] theorem State.bindName_winLen (s : State) (dst : Option Nat) : (s.bindName dst).winLen = s.winLen := by
  unfold State.bindName; (repeat' split) <;> rfl
@[simp] theorem State.bindName_reads (s : State) (dst : Option Nat) : (s.bindName dst).reads = s.reads := by
  unfold State.bindName; (repeat' split) <;> rfl
@[simp] theorem State.bindName_memFaulted (s : State) (dst : Option Nat) : (s.bindName dst).memFaulted = s.memFaulted := by
  unfold State.bindName; (repeat' split) <;> rfl
@[simp] theorem State.bindName_draws (s : State) (dst : Option Nat) : (s.bindName dst).draws = s.draws := by
  unfold State.bindName; (repeat' split) <;> rfl

@[simp] theorem State.bindName_none (s : State) : s.bindName none = s := rfl

/-! BUSY follows REM. -/

/-- BUSY is 1 exactly when REM is not zero (R25). -/
theorem State.busy_iff (s : State) : s.busy = true ↔ s.rem ≠ 0 := by
  simp [State.busy]

/-- BUSY is 0 exactly when REM is zero (R25). -/
theorem State.idle_iff (s : State) : s.busy = false ↔ s.rem = 0 := by
  simp [State.busy]

/-- BUSY depends on REM alone. -/
theorem State.busy_congr {s t : State} (h : t.rem = s.rem) : t.busy = s.busy := by
  simp [State.busy, h]

end Sys2Proof.Machine
end

