-- ==== Sys2Proof/Laws/Ops.lean ====
section
/-!
SUPPORT. Everything a shared operation can do, said once: forward where its result is one equation, and as an
inversion ("if it answers next t, then …") for each agent's turn and for the step.
-/
namespace Sys2Proof.Machine

/-- A command presented while BUSY = 1 is discarded with ERR_BUSY. -/
theorem presentCommand_busy (f : State → Result) {s : State} (h : s.busy = true) :
    presentCommand f s = .next (s.raise .busy) := by
  simp [presentCommand, h]

/-- A command presented while BUSY = 0 has its effect. -/
theorem presentCommand_idle (f : State → Result) {s : State} (h : s.busy = false) :
    presentCommand f s = f s := by
  simp [presentCommand, h]

/-- A continuation answers a next state from a next state only. -/
theorem onNext_next {f : State → State} {r : Result} {t : State} (h : onNext f r = .next t) :
    ∃ u, r = .next u ∧ t = f u := by
  cases r <;> simp_all [onNext]

/-- A CMD write that answers next has discarded its word, or the command answered next. -/
theorem hostCommand_next {f : State → Result} {s t : State} (h : hostCommand f s = .next t) :
    (s.busy = true ∧ t = (s.raise .busy).respond .okay) ∨
    (s.busy = false ∧ ∃ u, f s = .next u ∧ t = u.respond .okay) := by
  obtain ⟨u, hu, rfl⟩ := onNext_next h
  cases hb : s.busy with
  | true =>
    rw [presentCommand_busy f hb] at hu
    exact .inl ⟨rfl, by cases hu; rfl⟩
  | false => exact .inr ⟨rfl, u, presentCommand_idle f hb ▸ hu, rfl⟩

/-- With no host store on its way to its window a buffer command is accepted. -/
theorem startBuffer_clear {n : Half} {s : State} (h : s.storeOnWay s.addr n = false) :
    startBuffer n s = .next (s.startWindow n) := by
  simp [startBuffer, State.bufferBase, h]

/-- With a host store on its way to its window a buffer command is the race. -/
theorem startBuffer_race {n : Half} {s : State} (h : s.storeOnWay s.addr n = true) :
    startBuffer n s = .fault .bufferRace := by
  simp [startBuffer, State.bufferBase, h]

/-- A buffer command is accepted exactly where no host store is on its way to its window. -/
theorem startBuffer_next {n : Half} {s t : State} (h : startBuffer n s = .next t) :
    s.storeOnWay s.addr n = false ∧ t = s.startWindow n := by
  cases hp : s.storeOnWay s.addr n with
  | true => rw [startBuffer_race hp] at h; cases h
  | false => rw [startBuffer_clear hp] at h; exact ⟨rfl, by cases h; rfl⟩

/-- What a presented command can do where it answers next: record an error, load CRC, or start its window. -/
theorem commandEffect_next {w : Word} {s t : State} (h : commandEffect (decodeCommand w) s = .next t) :
    t = s.raise .cmd ∨ (∃ c, t = s.loadCrc c) ∨
    (∃ n, windowOf (.wrCmd w) = some n ∧ s.storeOnWay s.addr n = false ∧ t = s.startWindow n) := by
  simp only [windowOf]
  cases hd : decodeCommand w with
  | error e => exact .inl (by simpa [hd, commandEffect] using h.symm)
  | ok c =>
    rw [hd] at h
    cases c with
    | init => exact .inr (.inl ⟨_, by simpa [commandEffect, initEffect] using h.symm⟩)
    | feed d => exact .inr (.inl ⟨_, by simpa [commandEffect, feedEffect] using h.symm⟩)
    | buf n => exact .inr (.inr ⟨n, rfl, startBuffer_next h⟩)
    | lsf => exact .inr (.inr ⟨28, rfl, startBuffer_next h⟩)

/-- Everything an instruction that answers next can do, before its response: nothing; record ERR_BUSY (BUSY = 1);
record ERR_CMD, load CRC or start a window (BUSY = 0); load ADDR; clear errors; draw a free value. -/
theorem exec_next {i : Instr} {s t : State} (h : exec i s = .next t) :
    ∃ u r, t = u.respond r ∧
      (u = s ∨
      (presentsCommand i = true ∧ s.busy = true ∧ u = s.raise .busy) ∨
      (presentsCommand i = true ∧ s.busy = false ∧
        ((∃ w, i = .wrCmd w ∧ u = s.raise .cmd) ∨ (∃ c, u = s.loadCrc c) ∨
          (∃ n, windowOf i = some n ∧ s.storeOnWay s.addr n = false ∧ u = s.startWindow n))) ∨
      (∃ w, i = .wrAddr w ∧ u = s.loadAddr w) ∨ (∃ w, i = .wrStatus w ∧ u = s.clearErrors w) ∨
      (i = .rdCrc ∧ u = s.countDraw)) := by
  cases i with
  | init =>
    rcases hostCommand_next h with ⟨hb, rfl⟩ | ⟨hb, u, hu, rfl⟩
    · exact ⟨_, _, rfl, .inr (.inl ⟨rfl, hb, rfl⟩)⟩
    · exact ⟨u, _, rfl, .inr (.inr (.inl ⟨rfl, hb, .inr (.inl ⟨_, by simpa [initEffect] using hu.symm⟩)⟩))⟩
  | feed d =>
    rcases hostCommand_next h with ⟨hb, rfl⟩ | ⟨hb, u, hu, rfl⟩
    · exact ⟨_, _, rfl, .inr (.inl ⟨rfl, hb, rfl⟩)⟩
    · exact ⟨u, _, rfl, .inr (.inr (.inl ⟨rfl, hb, .inr (.inl ⟨_, by simpa [feedEffect] using hu.symm⟩)⟩))⟩
  | buf n =>
    rcases hostCommand_next h with ⟨hb, rfl⟩ | ⟨hb, u, hu, rfl⟩
    · exact ⟨_, _, rfl, .inr (.inl ⟨rfl, hb, rfl⟩)⟩
    · exact ⟨u, _, rfl, .inr (.inr (.inl ⟨rfl, hb, .inr (.inr ⟨n, rfl, startBuffer_next hu⟩)⟩))⟩
  | lsf =>
    rcases hostCommand_next h with ⟨hb, rfl⟩ | ⟨hb, u, hu, rfl⟩
    · exact ⟨_, _, rfl, .inr (.inl ⟨rfl, hb, rfl⟩)⟩
    · exact ⟨u, _, rfl, .inr (.inr (.inl ⟨rfl, hb, .inr (.inr ⟨28, rfl, startBuffer_next hu⟩)⟩))⟩
  | wrCmd w =>
    rcases hostCommand_next h with ⟨hb, rfl⟩ | ⟨hb, u, hu, rfl⟩
    · exact ⟨_, _, rfl, .inr (.inl ⟨rfl, hb, rfl⟩)⟩
    · exact ⟨u, _, rfl, .inr (.inr (.inl ⟨rfl, hb, (commandEffect_next hu).imp_left fun he => ⟨w, rfl, he⟩⟩))⟩
  | rdCrc =>
    simp only [exec, execRdCrc, hostRead] at h
    split at h
    · exact ⟨_, _, (by cases h; rfl), .inr (.inr (.inr (.inr (.inr ⟨rfl, rfl⟩))))⟩
    · exact ⟨s, _, (by cases h; rfl), .inl rfl⟩
  | wrAddr w => exact ⟨_, _, (by cases h; rfl), .inr (.inr (.inr (.inl ⟨w, rfl, rfl⟩)))⟩
  | wrStatus w => exact ⟨_, _, (by cases h; rfl), .inr (.inr (.inr (.inr (.inl ⟨w, rfl, rfl⟩))))⟩
  | wrCrc w => exact ⟨s, _, (by cases h; rfl), .inl rfl⟩
  | rdAddr => exact ⟨s, _, (by cases h; rfl), .inl rfl⟩
  | rdCmd => exact ⟨s, _, (by cases h; rfl), .inl rfl⟩
  | rdStatus => exact ⟨s, _, (by cases h; rfl), .inl rfl⟩

/-- A posted store joins the list exactly where it meets no window byte. -/
theorem postTurn_next {a : Word} {b : Byte} {s t : State} (h : postTurn a b s = .next t) :
    s.inWindow a = false ∧ t = s.postStore a b := by
  simp only [postTurn] at h
  split at h
  · cases h
  · rename_i hw
    exact ⟨Bool.eq_false_of_not_eq_true hw, by cases h; rfl⟩

/-- A store reaches the memory exactly where it meets no window byte. -/
theorem storeArrives_next {a : Word} {b : Byte} {s t : State} (h : storeArrives a b s = .next t) :
    s.inWindow a = false ∧ t = s.writeByte a b := by
  simp only [storeArrives] at h
  split at h
  · cases h
  · rename_i hw
    exact ⟨Bool.eq_false_of_not_eq_true hw, by cases h; rfl⟩

/-- ENGINE's turn does nothing, or ends its command with a memory error, or folds one byte in. -/
theorem engineTurn_next {s t : State} (h : engineTurn s = .next t) :
    (t = s ∧ (s.busy = false ∨ s.memRead s.ptr = .never)) ∨
    (s.busy = true ∧ s.storePending s.ptr = false ∧ s.memRead s.ptr = .err ∧
      t = (s.logRead s.ptr).memoryError) ∨
    (∃ b, s.busy = true ∧ s.storePending s.ptr = false ∧ s.memRead s.ptr = .ok b ∧
      t = (s.logRead s.ptr).foldByte b) := by
  cases hb : s.busy with
  | false =>
    simp only [engineTurn, hb] at h
    exact .inl ⟨by cases h; rfl, .inl rfl⟩
  | true =>
    simp only [engineTurn, hb] at h
    cases hr : s.memRead s.ptr with
    | never => exact .inl ⟨by simpa [hr, engineRead] using h.symm, .inr rfl⟩
    | err =>
      cases hp : s.storePending s.ptr <;> simp [hr, engineRead, hp] at h
      exact .inr (.inl ⟨rfl, rfl, rfl, h.symm⟩)
    | ok b =>
      cases hp : s.storePending s.ptr <;> simp [hr, engineRead, hp] at h
      exact .inr (.inr ⟨b, rfl, rfl, rfl, h.symm⟩)

/-- HOST's turn does nothing, or takes a branch, or runs one instruction and binds its data. -/
theorem hostTurn_next {s t : State} (h : hostTurn s = .next t) :
    (fetchStmt s = none ∧ t = s) ∨
    (∃ v mask target, fetchStmt s = some (.bnz v mask target) ∧
      t = s.setHostPc (bnzNext v mask target s)) ∨
    (∃ r dst i u, fetchStmt s = some (.issue r dst) ∧ decode r = .ok i ∧
      exec i (s.setHostPc (s.hostPc + 1)) = .next u ∧ t = u.bindName dst) := by
  simp only [hostTurn] at h
  cases hf : fetchStmt s with
  | none => exact .inl ⟨rfl, by simpa [hf] using h.symm⟩
  | some st =>
    cases st with
    | bnz v mask target => exact .inr (.inl ⟨v, mask, target, rfl, by simpa [hf, hostStmt] using h.symm⟩)
    | issue r dst =>
      simp only [hf, hostStmt, hostIssue] at h
      split at h
      · cases h
      · rename_i i hd
        obtain ⟨u, hu, rfl⟩ := onNext_next h
        exact .inr (.inr ⟨r, dst, i, u, rfl, hd, hu, rfl⟩)

/-- The oldest pending store leaves the list and reaches the memory, or there is none. -/
theorem drainTurn_next {s t : State} (h : drainTurn s = .next t) :
    (s.pending = [] ∧ t = s) ∨
    (∃ a b rest, s.pending = (a, b) :: rest ∧ s.inWindow a = false ∧
      t = (s.setPending rest).writeByte a b) := by
  simp only [drainTurn] at h
  split at h
  · exact .inl ⟨‹_›, by cases h; rfl⟩
  · rename_i a b rest hp
    obtain ⟨hw, rfl⟩ := storeArrives_next h
    exact .inr ⟨a, b, rest, hp, hw, rfl⟩

/-- A byte of a window lies that far from the window's base. -/
theorem windowAddr_sub (base : Word) (i : Nat) : windowAddr base i - base = BitVec.ofNat 32 i := by
  rw [windowAddr, BitVec.add_comm, BitVec.add_sub_cancel]

/-- The bytes of a window are those at `windowAddr`, one for each number below its length. -/
theorem isWindowByte_iff {base a : Word} {n : Half} :
    isWindowByte base n a = true ↔ ∃ i, i < n.toNat ∧ a = windowAddr base i := by
  rw [isWindowByte, decide_eq_true_iff]
  constructor
  · intro h
    refine ⟨_, h, ?_⟩
    rw [windowAddr, BitVec.ofNat_toNat, BitVec.setWidth_eq, BitVec.add_comm, BitVec.sub_add_cancel]
  · rintro ⟨i, hi, rfl⟩
    have hlt : i < 2 ^ 32 := Nat.lt_trans hi (Nat.lt_trans n.isLt (by decide))
    rwa [windowAddr_sub, BitVec.toNat_ofNat, Nat.mod_eq_of_lt hlt]

/-- The running command's window, byte by byte. -/
theorem inWindow_iff {s : State} {a : Word} :
    s.inWindow a = true ↔ s.busy = true ∧ ∃ i, i < s.winLen.toNat ∧ a = windowAddr s.winBase i := by
  rw [State.inWindow, Bool.and_eq_true, isWindowByte_iff]

/-- A byte of the running command's window is in it. -/
theorem inWindow_windowAddr {s : State} {i : Nat} (hb : s.busy = true) (h : i < s.winLen.toNat) :
    s.inWindow (windowAddr s.winBase i) = true :=
  inWindow_iff.mpr ⟨hb, i, h, rfl⟩

/-- No host store is on its way to a window exactly where none is to any of its bytes. -/
theorem storeOnWay_false_iff {s : State} {base : Word} {n : Half} :
    s.storeOnWay base n = false ↔ ∀ i, i < n.toNat → s.storePending (windowAddr base i) = false := by
  simp only [State.storeOnWay, State.storePending, List.any_eq_false]
  constructor
  · intro h i hi p hp he
    exact h p hp (isWindowByte_iff.mpr ⟨i, hi, eq_of_beq he⟩)
  · intro h p hp hw
    obtain ⟨i, hi, he⟩ := isWindowByte_iff.mp hw
    exact h i hi p hp (beq_iff_eq.mpr he)

/-- No step: the run is where it started. -/
@[simp] theorem run_zero (s : State) : core.run 0 s = .next s := rfl

/-- A run whose first step answers next goes on from there. -/
theorem run_succ {s t : State} (k : Nat) (h : step s = .next t) : core.run (k + 1) s = core.run k t := by
  simp only [Host.Core.run]
  rw [show core.step s = .next t from h]

/-- A step is the turn that nothing scheduled takes, or the scheduled event's on the state it leaves. -/
theorem step_next {s t : State} (h : step s = .next t) :
    (s.sched = [] ∧ idleTurn s = .next t) ∨
    (∃ e rest, s.sched = e :: rest ∧ eventTurn e (s.setSched rest) = .next t) := by
  simp only [step, takeTurn] at h
  split at h
  · exact .inl ⟨‹_›, h⟩
  · exact .inr ⟨_, _, ‹_›, h⟩

/-- Everything a step that answers next can do, on the state `u` that its schedule leaves: ENGINE's turn, HOST's
turn, a reset, a store reaching the memory (from another agent, or the oldest pending one), a store posted. -/
theorem step_turns {s t : State} (h : step s = .next t) :
    ∃ u, (u = s ∨ ∃ e rest, s.sched = e :: rest ∧ u = s.setSched rest) ∧
      (engineTurn u = .next t ∨ hostTurn u = .next t ∨ t = u.resetBlock ∨
        (∃ a b, storeArrives a b u = .next t) ∨ (∃ a b, postTurn a b u = .next t) ∨ drainTurn u = .next t) := by
  rcases step_next h with ⟨-, h⟩ | ⟨e, rest, hs, h⟩
  · refine ⟨s, .inl rfl, ?_⟩
    simp only [idleTurn] at h
    split at h
    · exact .inl h
    · exact .inr (.inl h)
  · refine ⟨_, .inr ⟨e, rest, hs, rfl⟩, ?_⟩
    cases e with
    | host => exact .inr (.inl h)
    | engine => exact .inl h
    | reset => exact .inr (.inr (.inl (by simpa [eventTurn] using h.symm)))
    | store a b => exact .inr (.inr (.inr (.inl ⟨a, b, h⟩)))
    | post a b => exact .inr (.inr (.inr (.inr (.inl ⟨a, b, h⟩))))
    | drain => exact .inr (.inr (.inr (.inr (.inr h))))

end Sys2Proof.Machine
end

