-- ==== Sys2Proof/Laws/PerInstr.lean ====
section
/-!
SUPPORT. The family of statements made per instruction: what the encoder issues for it passes the word checks.
-/
namespace Sys2Proof.Laws.Encodable

/-- The instruction's encoding is an admitted request (R52, R55). -/
def Statement (i : Instr) : Prop :=
  requestOk (encode i) = true

theorem init : Statement .init := by
  unfold Statement; decide

theorem feed (data : Byte) : Statement (.feed data) := by
  revert data; unfold Statement; decide

theorem buf (len : Half) : Statement (.buf len) := by
  have low (m : Word) (hm : m.toNat < 2 ^ 16) : encodeCommand (.buf len) &&& m = 3 &&& m := by
    apply BitVec.eq_of_getLsbD_eq
    intro i hi
    simp only [encodeCommand, packCommand, BitVec.getLsbD_and, BitVec.getLsbD_or, BitVec.getLsbD_shiftLeft,
      BitVec.getLsbD_setWidth]
    by_cases h16 : i < 16
    · interval_cases i <;> simp
    · have h : m.getLsbD i = false :=
        Nat.testBit_lt_two_pow (Nat.lt_of_lt_of_le hm (Nat.pow_le_pow_right (by decide) (by omega)))
      simp [h]
  have h1 := low 0x0000000F (by decide)
  have h2 := low 0x000000F0 (by decide)
  have h3 := low 0x0000FF00 (by decide)
  simp only [Statement, encode, requestOk, commandWordOk, commandOpOk, commandRsvOk, commandDataOk, commandLenOk,
    h1, h2, h3]
  simp

theorem lsf : Statement .lsf := by
  unfold Statement; decide

theorem rdCrc : Statement .rdCrc := by
  unfold Statement; decide

theorem wrCrc (w : Word) : Statement (.wrCrc w) := by
  change descOk _ = true; decide

theorem rdAddr : Statement .rdAddr := by
  unfold Statement; decide

theorem wrAddr (w : Word) : Statement (.wrAddr w) := by
  change descOk _ = true; decide

theorem rdCmd : Statement .rdCmd := by
  unfold Statement; decide

theorem wrCmd (w : Word) : Statement (.wrCmd w) := by
  change descOk _ = true; decide

theorem rdStatus : Statement .rdStatus := by
  unfold Statement; decide

theorem wrStatus (w : Word) : Statement (.wrStatus w) := by
  change descOk _ = true; decide

end Sys2Proof.Laws.Encodable
end

