-- ==== Sys2Proof/Tests/Slice0.lean ====
section
/-!
SUPPORT. The model's own tests. Expected values come from spec/95_test_vectors and the tables of spec/; each test names
its source. The `witness_` theorems show that a statement's hypotheses can be met together.
-/
namespace Sys2Proof.Tests
open Sys2Proof Sys2Proof.Machine

/-! ### Helpers -/

/-- A field of the next state, where there is one. -/
def nextIs {α : Type} (f : State → α) : Result → Option α
  | .next t => some (f t)
  | .fault _ => none
  | .refused _ => none

/-- The fault, where there is one. -/
def faultIs : Result → Option Fault
  | .next _ => none
  | .fault r => some r
  | .refused _ => none

/-- Idle, CRC 0x1234, ADDR 0x3000, two readable bytes (95 V-BUF-4). -/
def idleSt : State :=
  { State.reset with crc := 0x1234, addr := 0x3000, mem := [(0x3000, 0x11), (0x3001, 0x22)] }

/-- A command of 4 bytes over those two just accepted (95 V-BUF-4). -/
def busySt : State :=
  { idleSt with crc := 0xFFFF, ptr := 0x3000, rem := 4, winBase := 0x3000, winLen := 4 }

/-- The second of the two bytes is the last of a command of 2. -/
def lastSt : State :=
  { idleSt with crc := 0xE2A5, ptr := 0x3001, rem := 1, winBase := 0x3000, winLen := 2 }

/-- The first byte the memory refuses is next (95 V-BUF-4, step 3). -/
def refusedSt : State :=
  { busySt with crc := 0xFAD1, ptr := 0x3002, rem := 2 }

/-- `s` with one statement in HOST's script and HOST next. -/
def hostSt (s : State) (st : Stmt) : State :=
  { s with script := [st], hostPc := 0, sched := [.host] }

/-- `s` with one event next. -/
def withEvent (s : State) (e : Event) : State :=
  { s with sched := [e] }

/-! ### The words of spec/30 (R52, R55, R59), written out, decode to what they stand for -/

theorem test_decode_init : decode (.command 0x00000001) = .ok .init := by decide
theorem test_decode_feed : decode (.command 0b00000000000000000100000100000010) = .ok (.feed 0x41) := by decide
theorem test_decode_buf : decode (.command 0b00000000000010010000000000000011) = .ok (.buf 9) := by decide
theorem test_decode_lsf : decode (.command 0x00000004) = .ok .lsf := by decide
theorem test_decode_rdCrc : decode (.access 0b01000000000 7) = .ok .rdCrc := by decide
theorem test_decode_wrCrc : decode (.access 0b11000000000 7) = .ok (.wrCrc 7) := by decide
theorem test_decode_rdAddr : decode (.access 0b01000000100 7) = .ok .rdAddr := by decide
theorem test_decode_wrAddr : decode (.access 0b11000000100 7) = .ok (.wrAddr 7) := by decide
theorem test_decode_rdCmd : decode (.access 0b01000001000 7) = .ok .rdCmd := by decide
theorem test_decode_wrCmd : decode (.access 0b11000001000 7) = .ok (.wrCmd 7) := by decide
theorem test_decode_rdStatus : decode (.access 0b01000001100 7) = .ok .rdStatus := by decide
theorem test_decode_wrStatus : decode (.access 0b11000001100 7) = .ok (.wrStatus 7) := by decide

/-- 95 V-DEC-9 to V-DEC-19: the reason each illegal word is rejected for. -/
theorem test_decode_illegal_words :
    [(0x00000000 : Word), 0x00000005, 0x0000000F].map decodeCommand = List.replicate 3 (.error .unknownOp) ∧
    [(0x00000011 : Word), 0x000000F3].map decodeCommand = List.replicate 2 (.error .reservedField) ∧
    [(0x00000101 : Word), 0x80000001, 0x00014102, 0x00000103, 0x001C0004, 0x00000104].map decodeCommand =
      List.replicate 6 (.error .unusedField) := by decide

/-- 95 V-REG-11 to V-REG-15: the reason each descriptor is rejected for. -/
theorem test_decode_illegal_descriptors :
    decode (.access 0x210 0) = .error .reservedOffset ∧ decode (.access 0x102 0) = .error .wrongSize ∧
    decode (.access 0x000 0) = .error .wrongSize ∧ decode (.access 0x606 0) = .error .misaligned ∧
    decode (.access 0x708 1) = .error .reservedSize := by decide

/-! ### WellFormed: an ill-formed word for each check -/

theorem test_commandOp_refuses : commandOpOk 0x00000005 = false ∧ commandWordOk 0x00000005 = false := by decide
theorem test_commandRsv_refuses : commandRsvOk 0x00000011 = false ∧ commandWordOk 0x00000011 = false := by decide
theorem test_commandData_refuses : commandDataOk 0x00000103 = false ∧ commandWordOk 0x00000103 = false := by decide
theorem test_commandLen_refuses : commandLenOk 0x001C0004 = false ∧ commandWordOk 0x001C0004 = false := by decide
theorem test_descSize_refuses : descSizeOk 0x708 = false ∧ descOk 0x708 = false := by decide
theorem test_descAlign_refuses : descAlignOk 0x606 = false ∧ descOk 0x606 = false := by decide
theorem test_descOffset_refuses : descOffsetOk 0x210 = false ∧ descOk 0x210 = false := by decide
theorem test_request_accepts : requestOk (.command 0x00090003) = true ∧ requestOk (.access 0x60C 7) = true := by decide

/-! ### The datapath -/

/-- 95 V-BIT-1 to V-BIT-6. -/
theorem test_bitstep_vectors :
    [(0x0000 : Half), 0x0001, 0x7FFF, 0x8000, 0xC000, 0xFFFF].map bitstep =
      [0x0000, 0x0002, 0xFFFE, 0x5935, 0xD935, 0xA6CB] ∧
    [(0x0000 : Half), 0x8000, 0xFFFF].map bitstepSrc = [0x0000, 0x5935, 0xA6CB] := by decide

/-- 95 V-BYTE-1 to V-BYTE-17. -/
theorem test_step8_vectors :
    [(0x00 : Byte), 0x01, 0x12, 0x41, 0x80, 0xAB, 0xFF].map (step8 0xFFFF) =
      [0x4C14, 0x1521, 0x09FA, 0x206E, 0x268A, 0x002A, 0xFF00] ∧
    [(0x00 : Byte), 0x01, 0xFF].map (step8 0x0000) = [0x0000, 0x5935, 0xB314] ∧
    step8 0x8000 0x00 = 0x6A9E ∧ step8 0x0001 0x00 = 0x0100 ∧ step8 0x1234 0x00 = 0x71EE ∧
    step8 0x1234 0x12 = 0x3400 ∧ step8 0x95E0 0x95 = 0xE000 ∧ step8 0xE000 0xE0 = 0x0000 ∧
    step8 0x206E 0x42 = 0x5F18 := by decide

/-- 95 V-CRC-1, 4, 5, 6, 7, 11, 10 by the 16-bit form, and 10 by the source's algorithm. -/
theorem test_crc16_vectors :
    crc16 [] = 0xFFFF ∧ crc16 [0x00, 0x00] = 0x676C ∧ crc16 [0xFF, 0xFF] = 0x0000 ∧ crc16 [0x41, 0x42] = 0x5F18 ∧
    crc16 [0xAB, 0xCD] = 0x6AC7 ∧ crc16 (List.replicate 9 0) = 0x2A13 ∧
    crc16 [0x31, 0x32, 0x33, 0x34, 0x35, 0x36, 0x37, 0x38, 0x39] = 0x772B ∧
    crc16Src [0x31, 0x32, 0x33, 0x34, 0x35, 0x36, 0x37, 0x38, 0x39] = 0x772B := by decide +kernel

/-- 95 V-CRC-13, 16, 18. -/
theorem test_crc16_long_vectors :
    crc16 (List.replicate 28 0) = 0x95E0 ∧ crc16 ((List.range 28).map (BitVec.ofNat 8)) = 0xF305 ∧
    crc16 ((List.range 256).map (BitVec.ofNat 8)) = 0x1C31 := by decide +kernel

/-- The table of R74, its four quarters. -/
def tableFrom (k : Nat) : List Half :=
  (List.range 64).map (fun i => step8 0x0000 (BitVec.ofNat 8 (k + i)))

/-- R74: T[0] to T[63]. -/
theorem test_table_0 : tableFrom 0 =
    [0x0000, 0x5935, 0xB26A, 0xEB5F, 0x3DE1, 0x64D4, 0x8F8B, 0xD6BE] ++
    [0x7BC2, 0x22F7, 0xC9A8, 0x909D, 0x4623, 0x1F16, 0xF449, 0xAD7C] ++
    [0xF784, 0xAEB1, 0x45EE, 0x1CDB, 0xCA65, 0x9350, 0x780F, 0x213A] ++
    [0x8C46, 0xD573, 0x3E2C, 0x6719, 0xB1A7, 0xE892, 0x03CD, 0x5AF8] ++
    [0xB63D, 0xEF08, 0x0457, 0x5D62, 0x8BDC, 0xD2E9, 0x39B6, 0x6083] ++
    [0xCDFF, 0x94CA, 0x7F95, 0x26A0, 0xF01E, 0xA92B, 0x4274, 0x1B41] ++
    [0x41B9, 0x188C, 0xF3D3, 0xAAE6, 0x7C58, 0x256D, 0xCE32, 0x9707] ++
    [0x3A7B, 0x634E, 0x8811, 0xD124, 0x079A, 0x5EAF, 0xB5F0, 0xECC5] := by decide

/-- R74: T[64] to T[127]. -/
theorem test_table_1 : tableFrom 64 =
    [0x354F, 0x6C7A, 0x8725, 0xDE10, 0x08AE, 0x519B, 0xBAC4, 0xE3F1] ++
    [0x4E8D, 0x17B8, 0xFCE7, 0xA5D2, 0x736C, 0x2A59, 0xC106, 0x9833] ++
    [0xC2CB, 0x9BFE, 0x70A1, 0x2994, 0xFF2A, 0xA61F, 0x4D40, 0x1475] ++
    [0xB909, 0xE03C, 0x0B63, 0x5256, 0x84E8, 0xDDDD, 0x3682, 0x6FB7] ++
    [0x8372, 0xDA47, 0x3118, 0x682D, 0xBE93, 0xE7A6, 0x0CF9, 0x55CC] ++
    [0xF8B0, 0xA185, 0x4ADA, 0x13EF, 0xC551, 0x9C64, 0x773B, 0x2E0E] ++
    [0x74F6, 0x2DC3, 0xC69C, 0x9FA9, 0x4917, 0x1022, 0xFB7D, 0xA248] ++
    [0x0F34, 0x5601, 0xBD5E, 0xE46B, 0x32D5, 0x6BE0, 0x80BF, 0xD98A] := by decide

/-- R74: T[128] to T[191]. -/
theorem test_table_2 : tableFrom 128 =
    [0x6A9E, 0x33AB, 0xD8F4, 0x81C1, 0x577F, 0x0E4A, 0xE515, 0xBC20] ++
    [0x115C, 0x4869, 0xA336, 0xFA03, 0x2CBD, 0x7588, 0x9ED7, 0xC7E2] ++
    [0x9D1A, 0xC42F, 0x2F70, 0x7645, 0xA0FB, 0xF9CE, 0x1291, 0x4BA4] ++
    [0xE6D8, 0xBFED, 0x54B2, 0x0D87, 0xDB39, 0x820C, 0x6953, 0x3066] ++
    [0xDCA3, 0x8596, 0x6EC9, 0x37FC, 0xE142, 0xB877, 0x5328, 0x0A1D] ++
    [0xA761, 0xFE54, 0x150B, 0x4C3E, 0x9A80, 0xC3B5, 0x28EA, 0x71DF] ++
    [0x2B27, 0x7212, 0x994D, 0xC078, 0x16C6, 0x4FF3, 0xA4AC, 0xFD99] ++
    [0x50E5, 0x09D0, 0xE28F, 0xBBBA, 0x6D04, 0x3431, 0xDF6E, 0x865B] := by decide

/-- R74: T[192] to T[255]. -/
theorem test_table_3 : tableFrom 192 =
    [0x5FD1, 0x06E4, 0xEDBB, 0xB48E, 0x6230, 0x3B05, 0xD05A, 0x896F] ++
    [0x2413, 0x7D26, 0x9679, 0xCF4C, 0x19F2, 0x40C7, 0xAB98, 0xF2AD] ++
    [0xA855, 0xF160, 0x1A3F, 0x430A, 0x95B4, 0xCC81, 0x27DE, 0x7EEB] ++
    [0xD397, 0x8AA2, 0x61FD, 0x38C8, 0xEE76, 0xB743, 0x5C1C, 0x0529] ++
    [0xE9EC, 0xB0D9, 0x5B86, 0x02B3, 0xD40D, 0x8D38, 0x6667, 0x3F52] ++
    [0x922E, 0xCB1B, 0x2044, 0x7971, 0xAFCF, 0xF6FA, 0x1DA5, 0x4490] ++
    [0x1E68, 0x475D, 0xAC02, 0xF537, 0x2389, 0x7ABC, 0x91E3, 0xC8D6] ++
    [0x65AA, 0x3C9F, 0xD7C0, 0x8EF5, 0x584B, 0x017E, 0xEA21, 0xB314] := by decide

/-! ### Instructions, one step each -/

/-- 95 V-INIT-1. -/
theorem test_init : nextIs (fun t => (t.crc, t.statusWord)) (exec .init idleSt) = some (0xFFFF, 0x0) := by decide

/-- 95 V-FEED-6: ERR_MEM stays. -/
theorem test_feed : nextIs (fun t => (t.crc, t.statusWord)) (exec (.feed 0x12) { idleSt with errMem := true }) =
    some (0x3400, 0x8) := by decide

/-- 95 V-FEED-7: BUSY = 1. -/
theorem test_feed_busy : nextIs (fun t => (t.crc, t.statusWord)) (exec (.feed 0x12) { busySt with crc := 0x1234 }) =
    some (0x1234, 0x5) := by decide

/-- 95 V-BUF-1, at issue. -/
theorem test_buf : nextIs (fun t => (t.crc, t.ptr, t.rem, t.statusWord)) (exec (.buf 9) { idleSt with addr := 0x1000 }) =
    some (0xFFFF, 0x1000, 9, 0x1) := by decide

/-- 95 V-BUF-2: LEN = 0. -/
theorem test_buf_zero : nextIs (fun t => (t.crc, t.rem, t.statusWord, t.reads)) (exec (.buf 0) idleSt) =
    some (0xFFFF, 0, 0x0, []) := by decide

/-- 95 V-LSF-1, at issue. -/
theorem test_lsf : nextIs (fun t => (t.crc, t.ptr, t.rem, t.statusWord)) (exec .lsf idleSt) =
    some (0xFFFF, 0x3000, 28, 0x1) := by decide

/-- 95 V-BUF-6: a command while a BUF runs is discarded. -/
theorem test_init_busy : nextIs (fun t => (t.crc, t.ptr, t.rem, t.errBusy)) (exec .init refusedSt) =
    some (0xFAD1, 0x3002, 2, true) := by decide

/-- 95 V-REG-1. -/
theorem test_rdCrc : nextIs (fun t => t.response) (exec .rdCrc State.reset) = some (some (.data 0x0000FFFF)) := by decide

/-- 95 V-REG-6. -/
theorem test_wrCrc : nextIs (fun t => (t.crc, t.response)) (exec (.wrCrc 0x1234) { idleSt with crc := 0x206E }) =
    some (0x206E, some .okay) := by decide

/-- 95 V-REG-4. -/
theorem test_rdAddr : nextIs (fun t => t.response) (exec .rdAddr { idleSt with addr := 0xDEADBEEF }) =
    some (some (.data 0xDEADBEEF)) := by decide

/-- 95 V-BUF-5: PTR and REM of the running command stay. -/
theorem test_wrAddr_busy : nextIs (fun t => (t.addr, t.ptr, t.rem)) (exec (.wrAddr 0x9000) busySt) =
    some (0x9000, 0x3000, 4) := by decide

/-- 95 V-REG-5. -/
theorem test_rdCmd : nextIs (fun t => t.response) (exec .rdCmd busySt) = some (some (.data 0)) := by decide

/-- 95 V-FEED-8: an illegal word. -/
theorem test_wrCmd_illegal : nextIs (fun t => (t.crc, t.statusWord)) (exec (.wrCmd 0x00011202) idleSt) =
    some (0x1234, 0x2) := by decide

/-- 95 V-BUF-7: BUSY is tested before the word is decoded. -/
theorem test_wrCmd_busy : nextIs (fun t => (t.errCmd, t.errBusy)) (exec (.wrCmd 0x00000000) busySt) =
    some (false, true) := by decide

/-- R90: right after a command with no engine step, ERR bits set. -/
theorem test_rdStatus : nextIs (fun t => t.response) (exec .rdStatus { busySt with errCmd := true, errMem := true }) =
    some (some (.data 0xB)) := by decide

/-- 95 V-REG-7. -/
theorem test_wrStatus : nextIs State.statusWord
    (exec (.wrStatus 0x4) { idleSt with errCmd := true, errBusy := true, errMem := true }) = some 0xA := by decide

/-- 95 V-REG-8: BUSY is not cleared. -/
theorem test_wrStatus_busy : nextIs State.statusWord
    (exec (.wrStatus 0xFFFFFFFF) { busySt with errCmd := true, errBusy := true, errMem := true }) = some 0x1 := by decide

/-! ### The engine and the other events, one step each -/

/-- 95 V-BUF-4, step 1. -/
theorem test_engine_ok : nextIs (fun t => (t.crc, t.ptr, t.rem, t.reads)) (step (withEvent busySt .engine)) =
    some (0xE2A5, 0x3001, 3, [0x3000]) := by decide

/-- 95 V-BUF-4, step 3: the memory refuses; 0x3003 is never read. -/
theorem test_engine_err : nextIs (fun t => (t.statusWord, t.rem, t.reads, t.memFaulted)) (step (withEvent refusedSt .engine)) =
    some (0x8, 0, [0x3002], true) := by decide

/-- 95 V-BUF-3, step 1: PTR wraps (R34). -/
theorem test_engine_wraps : nextIs (fun t => (t.crc, t.ptr))
    (step { State.reset with mem := [(0xFFFFFFFF, 0xAB)], ptr := 0xFFFFFFFF, rem := 2 }) =
    some (0x002A, 0x00000000) := by decide

/-- 95 V-RST-1, V-RST-2. -/
theorem test_reset_event : nextIs (fun t => (t.crc, t.addr, t.statusWord, t.rem))
    (step (withEvent { refusedSt with errCmd := true, errBusy := true } .reset)) = some (0xFFFF, 0, 0, 0) := by decide

/-- R42: a store to a window byte while BUSY is a race, outside the window it is written. -/
theorem test_store_race : faultIs (step (withEvent refusedSt (.store 0x3000 0x55))) = some .bufferRace ∧
    faultIs (step (withEvent refusedSt (.store 0x3003 0x55))) = some .bufferRace ∧
    nextIs (fun t => t.memRead 0x3004) (step (withEvent refusedSt (.store 0x3004 0x55))) = some (.ok 0x55) := by decide

/-- R119, 93 S10: a host store to the first or last window byte not yet at the memory at the CMD write is a race, at the
bytes around the window it is none, and a BUF of 0 bytes has no window byte. -/
theorem test_store_on_way :
    [(0x3000 : Word), 0x3003].all (fun a => faultIs (exec (.buf 4) { idleSt with pending := [(a, 1)] }) == some .bufferRace) = true ∧
    [(0x2FFF : Word), 0x3004].all (fun a => nextIs State.rem (exec (.buf 4) { idleSt with pending := [(a, 1)] }) == some 4) = true ∧
    nextIs State.rem (exec (.buf 0) { idleSt with pending := [(0x3000, 1)] }) = some 0 ∧
    faultIs (exec (.wrCmd 4) { idleSt with pending := [(0x301B, 1)] }) = some .bufferRace := by decide

/-- R41, R43: a posted store is not yet in memory; the oldest is, after a drain. -/
theorem test_post_drain :
    nextIs (fun t => (t.pending, t.memRead 0x4000)) (step (withEvent { busySt with pending := [(0x5000, 2)] } (.post 0x4000 1))) =
      some ([(0x5000, 2), (0x4000, 1)], .err) ∧
    nextIs (fun t => (t.pending, t.memRead 0x5000)) (step (withEvent { busySt with pending := [(0x5000, 2), (0x4000, 1)] } .drain)) =
      some ([(0x4000, 1)], .ok 2) := by decide

/-- 95 V-REG-15: a bus error, no command runs. -/
theorem test_bus_error : faultIs (step (hostSt idleSt (.issue (.access 0x708 1) none))) = some .hostBusError := by decide

/-- R57: `rd STATUS -> s` binds s; `bnz s & 1, 0` goes back while bit 0 is 1. -/
theorem test_rd_binds : nextIs (fun t => (t.nameValue 3, t.hostPc)) (step (hostSt busySt (rdStmt .status 3))) =
    some (1, 1) := by decide
theorem test_bnz : nextIs (fun t => t.hostPc) (step (hostSt { busySt with names := [(3, 1)] } (.bnz 3 1 7))) = some 7 ∧
    nextIs (fun t => t.hostPc) (step (hostSt { busySt with names := [(3, 2)] } (.bnz 3 1 7))) = some 1 := by decide

/-- 95 P2: the script's transactions, as its table writes them. -/
theorem test_assemble_p2 : assemble [.wr .addr 0x1000, .crcBuf 9, .label 5, .rd .status 2, .bnz 2 1 5, .rd .crc 1] =
    some [.issue (.access 0x604 0x1000) none, .issue (.command 0x00090003) none, .issue (.access 0x20C 0) (some 2),
      .bnz 2 1 2, .issue (.access 0x200 0) (some 1)] := by decide

/-- R58: a pseudo's expansion, its loop at its own position; a label nobody defines is rejected. -/
theorem test_assemble_pseudo : assemble [.clrErr, .lsfcrc 0x2000 1] =
    some [.issue (.access 0x60C 0xE) none, .issue (.access 0x604 0x2000) none, .issue (.command 0x00000004) none,
      .issue (.access 0x20C 0) (some 0), .bnz 0 1 3, .issue (.access 0x200 0) (some 1)] ∧
    assemble [.bnz 0 1 9] = none := by decide

/-- A label defined twice stands for its first definition (log 21). -/
theorem test_label_twice : assemble [.label 1, .crcInit, .label 1, .bnz 0 1 1] =
    some [.issue (.command 0x00000001) none, .bnz 0 1 0] := by decide

/-- From reset with nothing placed the machine waits (R113, log 5). -/
theorem test_reset_waits : nextIs id (step State.reset) = some State.reset := by decide

/-- The opcode table's rows, placed after reset, run: none stops. -/
theorem test_table_rows_run :
    ([1, 2, 3, 4].all (fun w => (nextIs id (step (State.reset.withFetchWord 32 w))).isSome) &&
      [0x200, 0x600, 0x204, 0x604, 0x208, 0x608, 0x20C, 0x60C].all
        (fun w => (nextIs id (step (State.reset.withFetchWord 16 w))).isSome)) = true := by decide

/-- The decoder on the opcode table's rows. -/
theorem test_table_rows_decode :
    [1, 0x4102, 0x90003, 4].map (decodeTableWord 32) = [some .init, some (.feed 0x41), some (.buf 9), some .lsf] ∧
    [0x200, 0x600, 0x204, 0x604, 0x208, 0x608, 0x20C, 0x60C].map (decodeTableWord 16) =
      [some .rdCrc, some (.wrCrc 0), some .rdAddr, some (.wrAddr 0), some .rdCmd, some (.wrCmd 0), some .rdStatus,
        some (.wrStatus 0)] ∧
    decodeTableWord 32 5 = none ∧ decodeTableWord 16 0x210 = none ∧ decodeTableWord 16 0xA00 = none := by decide

/-! ### Witnesses: the hypotheses of each statement, met together -/

theorem witness_ResetEventAndNoOther : (withEvent busySt .reset).sched = .reset :: [] ∧
    (∃ t, step (withEvent busySt (.store 0x9000 1)) = .next t) ∧ (∃ t, step (withEvent busySt (.post 0x9000 1)) = .next t) ∧
    (∃ t, step (withEvent busySt .drain) = .next t) := ⟨rfl, ⟨_, rfl⟩, ⟨_, rfl⟩, ⟨_, rfl⟩⟩
theorem witness_AccumulatorFitsSixteenBits : (0x0000FFFF : Word).toNat ≤ 0xFFFF ∧ (0x00008000 : Word).toNat ≤ 0xFFFF := by decide
theorem witness_AffineLaw : ([1, 2] : List Byte).length = ([3, 4] : List Byte).length := rfl
theorem witness_SingleBitSensitivity : (0 : Nat) < 8 ∧ 7 < 8 := by decide
theorem witness_EncodingExamples : (0x001C0004 : Word) ∈
    [(0x00000000 : Word), 0x00000005, 0x00000011, 0x00010001, 0x00010002, 0x00000103, 0x001C0004] := by decide
theorem witness_DescriptorTable : (0x210 : Desc) ∉ admittedDescs ∧ (0x20D : Desc) ∉ admittedDescs ∧
    (0x70C : Desc) ∉ admittedDescs := by decide
theorem witness_EncodeDecodeRoundTrip : decodeCommand 0xFFFF0003 = .ok (.buf 65535) ∧
    decodeAccess 0x60C 0xFFFFFFFF = .ok (.wrStatus 0xFFFFFFFF) ∧ decodeAccess 0x200 5 = .ok .rdCrc := by decide
theorem witness_RegisterWindowDescriptor : 256 ≤ ((Config.crcBase + 256#32) - Config.crcBase).toNat := by
  rw [BitVec.add_comm, BitVec.add_sub_cancel]; decide
theorem witness_InitStartsNewCrc : idleSt.busy = false ∧ (0x80000001 : Word).extractLsb' 0 4 = 1#4 ∧
    (0x80000001 : Word) ≠ 0x00000001 := by decide
theorem witness_FeedFoldsItsByte : idleSt.busy = false ∧
    ((0x00000012 : Word).extractLsb' 0 4 = 2#4 ∧ (0x00000012 : Word).extractLsb' 4 4 ≠ 0#4) ∧
    ((0x00010002 : Word).extractLsb' 0 4 = 2#4 ∧ (0x00010002 : Word).extractLsb' 16 16 ≠ 0#16) := by decide
theorem witness_StreamEquivalence : idleSt.busy = false ∧ idleSt.storeOnWay idleSt.addr 28 = false ∧
    ({ idleSt with pending := [(0x3004, 1)] } : State).storeOnWay 0x3000 4 = false ∧
    ∀ i ∈ [Instr.feed 0x31, .rdCrc, .wrAddr 7, .wrStatus 0xE, .wrCmd 0, .wrCmd 0x3202], keepsStream i = true := by decide
theorem witness_BufStartsItsWindow : idleSt.busy = false ∧ idleSt.storeOnWay idleSt.addr 65535 = false ∧
    (∃ t, exec (.buf 0) idleSt = .next t) ∧ (∃ t, exec (.buf 65535) idleSt = .next t) ∧
    ((0x00000103 : Word).extractLsb' 0 4 = 3#4 ∧ (0x00000103 : Word).extractLsb' 8 8 ≠ 0#8) ∧
    (∃ t, exec (.wrAddr 0x9000) busySt = .next t) := ⟨rfl, rfl, ⟨_, rfl⟩, ⟨_, rfl⟩, by decide, ⟨_, rfl⟩⟩
theorem witness_EmptyBufCompletesAtOnce : idleSt.busy = false := rfl
theorem witness_LsfStartsItsWindow : idleSt.busy = false ∧ idleSt.storeOnWay idleSt.addr 28 = false ∧ (0x001C0004 : Word).extractLsb' 0 4 = 4#4 ∧
    (0x001C0004 : Word) ≠ 0x00000004 := by decide
theorem witness_EngineStepFoldsOneByte :
    ((withEvent idleSt .engine).sched = .engine :: [] ∧ (withEvent idleSt .engine).busy = false) ∧
    ((withEvent lastSt .engine).busy = true ∧ (withEvent lastSt .engine).storePending 0x3001 = false ∧
      (withEvent lastSt .engine).memRead 0x3001 = .ok 0x22) := by decide
theorem witness_MemoryErrorEndsCommand : (withEvent refusedSt .engine).sched = .engine :: [] ∧ refusedSt.busy = true ∧
    refusedSt.storePending refusedSt.ptr = false ∧ refusedSt.memRead refusedSt.ptr = .err := by decide
theorem witness_UnansweredReadHangs : ({ busySt with silent := [0x3000] } : State).sched = [] ∧
    ({ busySt with silent := [0x3000] } : State).busy = true ∧
    ({ busySt with silent := [0x3000] } : State).memRead 0x3000 = .never := by decide
theorem idleSt_holds : holdsBytes idleSt idleSt.addr [0x11, 0x22] := by
  intro i b h
  match i, h with
  | 0, h => cases h; rfl
  | 1, h => cases h; rfl
theorem witness_BufferCommandResult : idleSt.busy = false ∧ idleSt.sched = [] ∧ ([0x11, 0x22] : List Byte).length < 65536 ∧
    holdsBytes idleSt idleSt.addr [0x11, 0x22] ∧
    ∀ i, i < ([0x11, 0x22] : List Byte).length → idleSt.storePending (windowAddr idleSt.addr i) = false :=
  ⟨rfl, rfl, by decide, idleSt_holds, fun _ _ => rfl⟩
theorem lastSt_invariant : commandInvariant lastSt := by
  refine ⟨by unfold memoryCanonical; decide, fun _ => by decide, fun _ => ⟨[0x11], by decide, ?_, by decide⟩⟩
  intro i b h
  match i, h with
  | 0, h => cases h; rfl
theorem witness_LastByteGivesWindowCrc : ∃ t, commandInvariant lastSt ∧ lastSt.busy = true ∧ step lastSt = .next t ∧
    t.busy = false ∧ t.memFaulted = false ∧ lastSt.sched.head? ≠ some .reset :=
  ⟨_, lastSt_invariant, rfl, rfl, rfl, rfl, by decide⟩
theorem witness_CommandInvariantKept : ∃ t, commandInvariant lastSt ∧ step lastSt = .next t := ⟨_, lastSt_invariant, rfl⟩
theorem witness_CommandTerminates : busySt.sched = [] ∧ busySt.silent = [] ∧ busySt.pending = [] := ⟨rfl, rfl, rfl⟩
theorem witness_LsfIgnoresOtherBytes : ∃ u v t, idleSt.busy = false ∧ idleSt.sched = [] ∧ fetchStmt idleSt = none ∧
    28 ≤ (0x301C#32 - idleSt.addr).toNat ∧ exec .lsf idleSt = .next u ∧
    exec .lsf (idleSt.writeByte 0x301C 0x95) = .next v ∧ core.run 1 u = .next t :=
  ⟨_, _, _, rfl, rfl, rfl, by decide, rfl, rfl, rfl⟩
theorem witness_RdCrcReturnsCrc : idleSt.busy = false ∧ busySt.busy = true ∧ (∃ t, exec .rdCrc idleSt = .next t) ∧
    ∃ t, exec .rdCrc busySt = .next t := ⟨rfl, rfl, ⟨_, rfl⟩, ⟨_, rfl⟩⟩
theorem witness_AddrReadWrite : idleSt.busy = false ∧ idleSt.storeOnWay 0x9000 28 = false ∧
    idleSt.storeOnWay 0x9000 65535 = false := by decide
theorem witness_RdStatusReturnsStatus : (4 : Nat) ≤ 4 ∧ 4 ≤ 31 := by decide
theorem witness_WrCmdDispatches : idleSt.busy = false ∧ decodeCommand 0x00004102 = .ok (.feed 0x41) ∧
    decodeCommand 0x00000000 = .error .unknownOp := by decide
theorem witness_CommandWhileBusyDiscarded : busySt.busy = true ∧
    [Instr.init, .feed 1, .buf 0, .lsf, .wrCmd 0].all presentsCommand = true := by decide
theorem witness_WrStatusClearsWrittenOnes : (0xFFFFFFF1 : Word) &&& 0x0000000E = 0x00000000 &&& 0x0000000E := by decide
theorem witness_IllegalTransactionIsBusError :
    hostMoves (hostSt busySt (.issue (.access 0x210 0) none)) ∧
    fetchStmt (hostSt busySt (.issue (.access 0x210 0) none)) = some (.issue (.access 0x210 0) none) ∧
    (hostMoves { idleSt with script := [.issue (.access 0x708 1) none] } ∧
      fetchStmt { idleSt with script := [.issue (.access 0x708 1) none] } = some (.issue (.access 0x708 1) none)) ∧
    (0x210 : Desc) ∉ admittedDescs ∧ (0x708 : Desc) ∉ admittedDescs :=
  ⟨.inl rfl, rfl, ⟨.inr ⟨rfl, rfl⟩, rfl⟩, by decide, by decide⟩
theorem witness_EveryTransactionResponds : windowOf (.buf 4) = some 4 ∧ windowOf (.wrCmd 4) = some 28 ∧
    idleSt.busy = false ∧ idleSt.storeOnWay idleSt.addr 28 = false ∧ windowOf .rdCrc = none := by decide
theorem witness_InstructionFrame : (∃ t, exec (.wrAddr 7) busySt = .next t) ∧ (∃ t, exec (.wrCmd 3) idleSt = .next t) ∧
    (∃ t, exec .rdCrc busySt = .next t) ∧ ∃ t, exec .lsf idleSt = .next t := ⟨⟨_, rfl⟩, ⟨_, rfl⟩, ⟨_, rfl⟩, ⟨_, rfl⟩⟩
theorem witness_StepRunsDecodedInstruction :
    fetchStmt (hostSt busySt (rdStmt .crc 1)) = some (.issue (.access 0x200 0) (some 1)) ∧
    decode (.access 0x200 0) = .ok .rdCrc ∧ (hostSt busySt (rdStmt .crc 1)).sched = .host :: [] ∧
    (fetchStmt { idleSt with script := [rdStmt .crc 1] } = some (.issue (.access 0x200 0) (some 1)) ∧
      idleSt.sched = [] ∧ idleSt.busy = false) := by decide
theorem witness_PlacedWordRunsNext : decodeTableWord 32 0x4102 = some (.feed 0x41) ∧
    decodeTableWord 16 0x60C = some (.wrStatus 0) := by decide
theorem witness_HostBranch : (hostSt { idleSt with names := [(3, 1)] } (.bnz 3 1 7)).sched = .host :: [] ∧
    fetchStmt (hostSt { idleSt with names := [(3, 1)] } (.bnz 3 1 7)) = some (.bnz 3 1 7) ∧
    (hostSt { idleSt with names := [(3, 1)] } (.bnz 3 1 7)).nameValue 3 &&& 1 ≠ 0 ∧
    (hostSt { idleSt with names := [(3, 2)] } (.bnz 3 1 7)).nameValue 3 &&& 1 = 0 := by decide
theorem witness_WaitIdlePolls :
    ({ busySt with script := waitIdleStmts 0, sched := [.host, .host] } : State).sched = .host :: .host :: [] ∧
    (waitIdleStmts 0)[0]? = (waitIdleStmts busySt.hostPc)[0]? ∧
    (waitIdleStmts 0)[0 + 1]? = (waitIdleStmts busySt.hostPc)[1]? := by decide
theorem witness_StoreRacesOnlyInWindow :
    (withEvent busySt (.store 0x3003 1)).sched = .store 0x3003 1 :: [] ∧
    (busySt.busy = true ∧ ∃ i, i < busySt.winLen.toNat ∧ 0x3003#32 = windowAddr busySt.winBase i) ∧
    ¬ (busySt.busy = true ∧ ∃ i, i < busySt.winLen.toNat ∧ 0x3004#32 = windowAddr busySt.winBase i) ∧
    0x3004#32 ∉ busySt.silent := by
  refine ⟨rfl, ⟨rfl, 3, by decide, by decide⟩, ?_, by decide⟩
  rintro ⟨-, i, hi, h⟩
  have h4 : i < 4 := hi
  match i, h4 with
  | 0, _ => exact absurd h (by decide)
  | 1, _ => exact absurd h (by decide)
  | 2, _ => exact absurd h (by decide)
  | 3, _ => exact absurd h (by decide)
/-- 0x3004 is no byte of busySt's window. -/
theorem busySt_outside : ¬ (busySt.busy = true ∧ ∃ i, i < busySt.winLen.toNat ∧ 0x3004#32 = windowAddr busySt.winBase i) :=
  witness_StoreRacesOnlyInWindow.2.2.1
theorem witness_DrainedStoreReachesMemory : (withEvent busySt .drain).sched = .drain :: [] ∧ busySt.pending = [] ∧
    ({ busySt with pending := [(0x3003, 1)] } : State).pending = (0x3003, 1) :: [] ∧
    (busySt.busy = true ∧ ∃ i, i < busySt.winLen.toNat ∧ 0x3003#32 = windowAddr busySt.winBase i) ∧
    ¬ (busySt.busy = true ∧ ∃ i, i < busySt.winLen.toNat ∧ 0x3004#32 = windowAddr busySt.winBase i) ∧
    0x3004#32 ∉ busySt.silent := ⟨rfl, rfl, rfl, witness_StoreRacesOnlyInWindow.2.1, busySt_outside, by decide⟩
theorem witness_PostedStoreWaits : (withEvent busySt (.post 0x3003 1)).sched = .post 0x3003 1 :: [] ∧
    (busySt.busy = true ∧ ∃ i, i < busySt.winLen.toNat ∧ 0x3003#32 = windowAddr busySt.winBase i) ∧
    ¬ (busySt.busy = true ∧ ∃ i, i < busySt.winLen.toNat ∧ 0x3004#32 = windowAddr busySt.winBase i) :=
  ⟨rfl, witness_StoreRacesOnlyInWindow.2.1, busySt_outside⟩
theorem witness_PendingStoreRaces :
    (windowOf (.buf 4) = some 4 ∧ idleSt.busy = false ∧ 3 < (4 : Half).toNat ∧
      ({ idleSt with pending := [(0x3003, 1)] } : State).storePending (windowAddr idleSt.addr 3) = true) ∧
    ({ busySt with pending := [(0x3000, 1)] } : State).busy = true ∧
    ({ busySt with pending := [(0x3000, 1)] } : State).memRead 0x3000 ≠ .never ∧
    ({ busySt with pending := [(0x3000, 1)] } : State).storePending 0x3000 = true ∧
    ({ busySt with sched := [.engine] } : State).sched = .engine :: [] := by decide
theorem witness_StoresStayClear : storesClear { busySt with pending := [(0x3004, 1)], sched := [.engine] } ∧
    ∃ t, step { busySt with pending := [(0x3004, 1)], sched := [.engine] } = .next t :=
  ⟨fun p hp => by cases List.mem_singleton.mp hp; decide, _, rfl⟩
theorem witness_BlockNeverWritesMemory : ∃ t, step (withEvent busySt (.store 0x9000 1)) = .next t ∧
    t.memRead 0x9000 ≠ busySt.memRead 0x9000 := ⟨_, rfl, by decide⟩
theorem witness_MemoryCanonicalKept : memoryCanonical busySt ∧ ∃ t, step (withEvent busySt (.store 0x2000 1)) = .next t :=
  ⟨by unfold memoryCanonical; decide, _, rfl⟩
theorem witness_ErrorBitsAreSticky : ∃ t, step { busySt with errCmd := true } = .next t ∧
    errorBit { busySt with errCmd := true } .cmd = true := ⟨_, rfl, rfl⟩
theorem witness_StopsOnlyByModelFaults : step (withEvent busySt (.store 0x3000 1)) = .fault .bufferRace ∧
    step (hostSt { idleSt with pending := [(0x3003, 1)] } (cmdStmt (.buf 4))) = .fault .bufferRace ∧
    step (hostSt busySt (.issue (.access 0x210 0) none)) = .fault .hostBusError := ⟨rfl, rfl, rfl⟩
theorem witness_FaultMarkIsKept : (∃ t, step { busySt with memFaulted := true } = .next t) ∧
    ∃ t, step refusedSt = .next t ∧ refusedSt.memFaulted = false ∧ t.memFaulted = true := ⟨⟨_, rfl⟩, _, rfl, rfl, rfl⟩
theorem witness_PtrIsNotObservable : (∃ t, exec .rdCrc idleSt = .next t) ∧
    ∃ u, exec .rdCrc { idleSt with ptr := 0xFFFFFFFF } = .next u := ⟨⟨_, rfl⟩, _, rfl⟩

end Sys2Proof.Tests
end

section
/-!
PROOFS. The running command's invariant (R33, R83, R85): it speaks of the command's registers and of what its window
reads as, so a step that leaves these alone keeps it; what is left is the start of a window, the engine's byte and a
store outside the window.
-/
namespace Sys2Proof.Machine

/-- What the running command's invariant speaks of: its registers, its window's record and the memory. -/
def commandView (s : State) : Half × Word × Half × Word × Half × List Host.Cell × List Word :=
  (s.crc, s.ptr, s.rem, s.winBase, s.winLen, s.mem, s.silent)

/-- A claim about bytes in memory is one about the answers at their addresses. -/
theorem holdsBytes_congr {s t : State} {base : Word} {bs : List Byte}
    (h : ∀ i, i < bs.length → t.memRead (windowAddr base i) = s.memRead (windowAddr base i))
    (hs : holdsBytes s base bs) : holdsBytes t base bs := by
  intro i b hi
  obtain ⟨hlt, -⟩ := List.getElem?_eq_some_iff.mp hi
  rw [h i hlt]
  exact hs i b hi

/-- One more byte in memory, right after those it holds. -/
theorem holdsBytes_snoc {s : State} {base : Word} {bs : List Byte} {b : Byte} (h : holdsBytes s base bs)
    (hb : s.memRead (windowAddr base bs.length) = .ok b) : holdsBytes s base (bs ++ [b]) := by
  intro i c hi
  rcases Nat.lt_trichotomy i bs.length with hlt | rfl | hgt
  · exact h i c (by rwa [List.getElem?_append_left hlt] at hi)
  · have hc : b = c := by simpa using hi
    exact hc ▸ hb
  · have hlen : (bs ++ [b]).length ≤ i := by simpa using hgt
    rw [List.getElem?_eq_none hlen] at hi
    cases hi

/-- The CRC of a sequence with a byte appended is the byte step on the CRC of the sequence, from any value. -/
theorem crc16From_snoc (c : Half) (bs : List Byte) (b : Byte) :
    crc16From c (bs ++ [b]) = step8 (crc16From c bs) b := by
  induction bs generalizing c with
  | nil => rfl
  | cons d ds ih => exact ih (step8 c d)

/-- The address after byte `i` of a window is byte `i + 1`, modulo 2^32 (R34). -/
theorem nextAddr_windowAddr (base : Word) (i : Nat) : nextAddr (windowAddr base i) = windowAddr base (i + 1) := by
  rw [nextAddr, windowAddr, windowAddr, BitVec.ofNat_add, BitVec.add_assoc]
  rfl

/-- The invariant follows from the command's view alone. -/
theorem commandInvariant_congr {s t : State} (h : commandView t = commandView s) (hs : commandInvariant s) :
    commandInvariant t := by
  simp only [commandView, Prod.mk.injEq] at h
  obtain ⟨hcrc, hptr, hrem, hbase, hlen, hmem, hsilent⟩ := h
  obtain ⟨hcanon, htrack, hpart⟩ := hs
  have hbusy : t.busy = s.busy := State.busy_congr hrem
  refine ⟨?_, fun hb => ?_, fun hb => ?_⟩
  · rwa [memoryCanonical, hmem]
  · rw [hrem, hlen, hptr, hbase]
    exact htrack (hbusy ▸ hb)
  · obtain ⟨bs, hn, hholds, hc⟩ := hpart (hbusy ▸ hb)
    rw [hrem, hlen, hbase, hcrc]
    exact ⟨bs, hn, holdsBytes_congr (fun _ _ => State.memRead_congr hmem hsilent _) hholds, hc⟩

/-- With no command running the invariant is that the memory is canonical. -/
theorem commandInvariant_idle {s : State} (hm : memoryCanonical s) (hr : s.rem = 0) : commandInvariant s := by
  have hidle : ¬ s.busy = true := by simp [s.busy_iff, hr]
  exact ⟨hm, fun hb => absurd hb hidle, fun hb => absurd hb hidle⟩

/-- A window just started meets the invariant: nothing is read yet, and CRC is that of no bytes. -/
theorem startWindow_commandInvariant {s : State} (n : Half) (hm : memoryCanonical s) :
    commandInvariant (s.startWindow n) :=
  ⟨hm, fun _ => ⟨Nat.le_refl _, by simp [windowAddr]⟩, fun _ => ⟨[], by simp, by simp [holdsBytes], rfl⟩⟩

/-- The engine's byte step keeps the invariant: the byte at PTR joins those already read. -/
theorem foldByte_commandInvariant {s : State} {b : Byte} (hs : commandInvariant s) (hb : s.busy = true)
    (hr : s.memRead s.ptr = .ok b) : commandInvariant (s.foldByte b) := by
  obtain ⟨hcanon, htrack, hpart⟩ := hs
  obtain ⟨hle, hptr⟩ := htrack hb
  obtain ⟨bs, hn, hholds, hc⟩ := hpart hb
  have hpos : s.rem.toNat ≠ 0 := fun h => s.busy_iff.mp hb (BitVec.eq_of_toNat_eq h)
  have hrem : (s.rem - 1).toNat = s.rem.toNat - 1 := BitVec.toNat_sub_of_le (by simp [BitVec.le_def]; omega)
  have hdone : s.winLen.toNat - (s.rem - 1).toNat = s.winLen.toNat - s.rem.toNat + 1 := by omega
  refine ⟨hcanon, fun _ => ⟨?_, ?_⟩, fun _ => ⟨bs ++ [b], ?_, ?_, ?_⟩⟩
  · simp only [State.foldByte_rem, State.foldByte_winLen]
    omega
  · simp only [State.foldByte_rem, State.foldByte_winLen, State.foldByte_ptr, State.foldByte_winBase, hdone, hptr]
    exact nextAddr_windowAddr _ _
  · simp only [State.foldByte_rem, State.foldByte_winLen, hdone, List.length_append, hn, List.length_singleton]
  · have hread : s.memRead (windowAddr s.winBase bs.length) = .ok b := by rwa [hn, ← hptr]
    exact holdsBytes_snoc (s := s) hholds hread
  · rw [State.foldByte_crc, hc]
    exact (crc16From_snoc _ bs b).symm

/-- A store outside the running command's window keeps the invariant: the bytes read so far read as before. -/
theorem writeByte_commandInvariant {s : State} {a : Word} (b : Byte) (hs : commandInvariant s)
    (ha : s.inWindow a = false) : commandInvariant (s.writeByte a b) := by
  obtain ⟨hcanon, htrack, hpart⟩ := hs
  refine ⟨Memory.write_wf b (memKey_lt a) hcanon, htrack, fun hb => ?_⟩
  obtain ⟨bs, hn, hholds, hc⟩ := hpart hb
  refine ⟨bs, hn, holdsBytes_congr (fun i hi => s.memRead_writeByte_other b fun he => ?_) hholds, hc⟩
  have hin : s.inWindow (windowAddr s.winBase i) = true := inWindow_windowAddr hb (by omega)
  rw [State.writeByte_winBase] at he
  simp [← he, hin] at ha

/-- Every instruction keeps the invariant. -/
theorem exec_commandInvariant {i : Instr} {s t : State} (hs : commandInvariant s) (h : exec i s = .next t) :
    commandInvariant t := by
  obtain ⟨u, r, rfl, hu⟩ := exec_next h
  suffices hinv : commandInvariant u from commandInvariant_congr rfl hinv
  rcases hu with rfl | ⟨-, -, rfl⟩ |
    ⟨-, hb, ⟨w, -, rfl⟩ | ⟨c, rfl⟩ | ⟨n, -, -, rfl⟩⟩ | ⟨w, -, rfl⟩ | ⟨w, -, rfl⟩ | ⟨-, rfl⟩
  · exact hs
  · exact commandInvariant_congr rfl hs
  · exact commandInvariant_congr rfl hs
  · exact commandInvariant_idle hs.1 (s.idle_iff.mp hb)
  · exact startWindow_commandInvariant n hs.1
  · exact commandInvariant_congr rfl hs
  · exact commandInvariant_congr rfl hs
  · exact commandInvariant_congr rfl hs

/-- HOST's turn keeps the invariant. -/
theorem hostTurn_commandInvariant {s t : State} (hs : commandInvariant s) (h : hostTurn s = .next t) :
    commandInvariant t := by
  rcases hostTurn_next h with ⟨-, rfl⟩ | ⟨v, mask, target, -, rfl⟩ | ⟨r, dst, i, u, -, -, hu, rfl⟩
  · exact hs
  · exact commandInvariant_congr rfl hs
  · have hpc : commandInvariant (s.setHostPc (s.hostPc + 1)) := commandInvariant_congr rfl hs
    have hinv : commandInvariant u := exec_commandInvariant hpc hu
    exact commandInvariant_congr (by simp [commandView]) hinv

/-- ENGINE's turn keeps the invariant. -/
theorem engineTurn_commandInvariant {s t : State} (hs : commandInvariant s) (h : engineTurn s = .next t) :
    commandInvariant t := by
  rcases engineTurn_next h with ⟨rfl, -⟩ | ⟨-, -, -, rfl⟩ | ⟨b, hb, -, hr, rfl⟩
  · exact hs
  · exact commandInvariant_idle hs.1 rfl
  · exact foldByte_commandInvariant (commandInvariant_congr rfl hs) hb hr

/-- A pending store that reaches the memory keeps the invariant. -/
theorem drainTurn_commandInvariant {s t : State} (hs : commandInvariant s) (h : drainTurn s = .next t) :
    commandInvariant t := by
  rcases drainTurn_next h with ⟨-, rfl⟩ | ⟨a, b, rest, -, ha, rfl⟩
  · exact hs
  · exact writeByte_commandInvariant b (commandInvariant_congr rfl hs) ha

/-- Settles O31, by the turn the step takes. -/
theorem commandInvariantKept : Obligations.CommandInvariantKept := by
  intro s t hs h
  obtain ⟨u, hu, hturn⟩ := step_turns h
  have hinv : commandInvariant u := by
    rcases hu with rfl | ⟨e, rest, -, rfl⟩
    · exact hs
    · exact commandInvariant_congr rfl hs
  rcases hturn with h | h | rfl | ⟨a, b, h⟩ | ⟨a, b, h⟩ | h
  · exact engineTurn_commandInvariant hinv h
  · exact hostTurn_commandInvariant hinv h
  · exact commandInvariant_idle hinv.1 rfl
  · obtain ⟨ha, rfl⟩ := storeArrives_next h
    exact writeByte_commandInvariant b hinv ha
  · obtain ⟨-, rfl⟩ := postTurn_next h
    exact commandInvariant_congr rfl hinv
  · exact drainTurn_commandInvariant hinv h

/-- Settles O32: the memory is empty and no command runs. -/
theorem commandInvariantAtReset : Obligations.CommandInvariantAtReset :=
  commandInvariant_idle ⟨List.Pairwise.nil, by simp [State.reset]⟩ rfl

end Sys2Proof.Machine
end

section
/-!
PROOFS. The source's 32-bit accumulator (R15, R61): zero-extended 16-bit values are closed under its iteration, which
is the 16-bit bit step on them.
-/
namespace Sys2Proof.Machine

/-- The 17-bit bit step and the 16-bit form are one function (R64). -/
theorem bitstep_eq_bitstepSrc (c : Half) : bitstep c = bitstepSrc c := by
  have hcarry : (c.setWidth 17 <<< 1).getLsbD 16 = c.getLsbD 15 := by simp
  have hshift : (c.setWidth 17 <<< 1).setWidth 16 = c <<< 1 := by
    ext i hi
    simp
  simp only [bitstep, bitstepSrc, hcarry, BitVec.setWidth_xor, hshift]
  cases c.getLsbD 15
  · exact BitVec.xor_zero
  · rfl

/-- The source's test of bit 16 after the shift sees bit 15 of the value shifted (R61). -/
theorem shiftLeft_and_carry_ne_zero (c : Half) :
    (c.setWidth 32 <<< 1 &&& 0x10000 : Word) ≠ 0 ↔ c.getLsbD 15 = true := by
  have hcarry : (c.setWidth 32 <<< 1 : Word).getLsbD 16 = c.getLsbD 15 := by simp
  rw [show (0x10000 : Word) = BitVec.twoPow 32 16 from rfl, BitVec.and_twoPow, hcarry]
  cases c.getLsbD 15 <;> decide

/-- The low half of a word, cut out by a mask. -/
theorem and_low_half (v : Word) : v &&& 0xFFFF = (v.setWidth 16).setWidth 32 := by
  apply BitVec.eq_of_toNat_eq
  rw [BitVec.toNat_and, BitVec.toNat_setWidth_of_le (by decide), BitVec.toNat_setWidth]
  exact Nat.and_two_pow_sub_one_eq_mod v.toNat 16

/-- The low half of the shifted accumulator is the shifted low half. -/
theorem setWidth_shiftLeft_one (c : Half) : (c.setWidth 32 <<< 1 : Word).setWidth 16 = c <<< 1 := by
  ext i hi
  simp

/-- One iteration of the source on a zero-extended value is the bit step (R15, R61). -/
theorem accBit_setWidth (c : Half) : accBit (c.setWidth 32) = (bitstep c).setWidth 32 := by
  simp only [accBit, bitstep, shiftLeft_and_carry_ne_zero]
  split
  · rw [and_low_half, BitVec.setWidth_xor, setWidth_shiftLeft_one]
    rfl
  · rename_i h
    have hmsb : c.msb = false := by rw [BitVec.msb_eq_getLsbD_last]; exact Bool.eq_false_of_not_eq_true h
    have hlt : 2 * c.toNat < 2 ^ 16 := BitVec.msb_eq_false_iff_two_mul_lt.mp hmsb
    have hzero : c <<< 1 ^^^ (0 : Half) = c <<< 1 := BitVec.xor_zero
    apply BitVec.eq_of_toNat_eq
    rw [hzero]
    simp only [BitVec.toNat_shiftLeft, BitVec.toNat_setWidth, Nat.shiftLeft_eq]
    omega

/-- `n` iterations of the source on a zero-extended value are `n` bit steps. -/
theorem accBits_setWidth (n : Nat) (c : Half) : accBits n (c.setWidth 32) = (bitsteps n c).setWidth 32 := by
  induction n generalizing c with
  | zero => rfl
  | succ n ih => rw [accBits_succ, bitsteps_succ, accBit_setWidth, ih]

/-- The source's step for one byte on a zero-extended value is the byte step. -/
theorem accByte_setWidth (c : Half) (b : Byte) : accByte (c.setWidth 32) b = (step8 c b).setWidth 32 := by
  have hxor : c.setWidth 32 ^^^ b.setWidth 32 <<< 8 = (c ^^^ b.setWidth 16 <<< 8).setWidth 32 := by
    rw [BitVec.setWidth_xor]
    congr 1
    apply BitVec.eq_of_toNat_eq
    simp only [BitVec.toNat_shiftLeft, BitVec.toNat_setWidth, Nat.shiftLeft_eq]
    omega
  rw [accByte, hxor, accBits_setWidth, step8]

/-- The source's accumulator over a byte sequence is the zero-extended CRC at every byte boundary (R15, R61). -/
theorem accBytes_setWidth (c : Half) (bs : List Byte) :
    accBytes (c.setWidth 32) bs = (crc16From c bs).setWidth 32 := by
  induction bs generalizing c with
  | nil => rfl
  | cons b bs ih => rw [accBytes_cons, crc16From_cons, accByte_setWidth, ih]

/-- A zero-extended 16-bit value is at most 0xFFFF. -/
theorem toNat_setWidth_half_le (c : Half) : (c.setWidth 32 : Word).toNat ≤ 0xFFFF := by
  rw [BitVec.toNat_setWidth_of_le (by decide)]
  omega

/-- A word of at most 0xFFFF is the zero-extension of its low half. -/
theorem setWidth_low_half {acc : Word} (h : acc.toNat ≤ 0xFFFF) : (acc.setWidth 16).setWidth 32 = acc := by
  apply BitVec.eq_of_toNat_eq
  simp only [BitVec.toNat_setWidth]
  omega

/-- Settles O4: the accumulator is a zero-extended CRC throughout. -/
theorem accumulatorFitsSixteenBits : Obligations.AccumulatorFitsSixteenBits := by
  refine ⟨fun buf => ?_, fun acc hacc => ?_⟩
  · have h : accBytes 0x0000FFFF buf = (crc16From 0xFFFF buf).setWidth 32 := accBytes_setWidth 0xFFFF buf
    rw [h]
    exact toNat_setWidth_half_le _
  · have hbit : accBit acc = (bitstep (acc.setWidth 16)).setWidth 32 := by
      rw [← accBit_setWidth, setWidth_low_half hacc]
    refine ⟨?_, ?_, ?_⟩
    · rw [BitVec.toNat_shiftLeft, Nat.shiftLeft_eq]
      omega
    · rw [hbit]
      exact toNat_setWidth_half_le _
    · rw [hbit, ← bitstep_eq_bitstepSrc]
      exact BitVec.setWidth_setWidth_of_le _ (by decide)

end Sys2Proof.Machine
end

section
/-!
PROOFS. The frame of an instruction (R14, R21, R23, R24, R30, R37), one lemma per part of the state, and what it says
of the sticky error bits (R23, R106).
-/
namespace Sys2Proof.Machine

/-- No instruction changes memory, host or schedule, nor the records of reads and of the run's fault mark. -/
theorem exec_environment {i : Instr} {s t : State} (h : exec i s = .next t) :
    t.mem = s.mem ∧ t.silent = s.silent ∧ t.pending = s.pending ∧ t.script = s.script ∧ t.hostPc = s.hostPc ∧
      t.names = s.names ∧ t.sched = s.sched ∧ t.reads = s.reads ∧ t.memFaulted = s.memFaulted := by
  obtain ⟨u, r, rfl, hu⟩ := exec_next h
  rcases hu with rfl | ⟨-, -, rfl⟩ |
    ⟨-, -, ⟨w, -, rfl⟩ | ⟨c, rfl⟩ | ⟨n, -, -, rfl⟩⟩ | ⟨w, -, rfl⟩ | ⟨w, -, rfl⟩ | ⟨-, rfl⟩ <;>
  exact ⟨rfl, rfl, rfl, rfl, rfl, rfl, rfl, rfl, rfl⟩

/-- Only a command changes CRC (R14). -/
theorem exec_crc {i : Instr} {s t : State} (h : exec i s = .next t) (hi : presentsCommand i = false) :
    t.crc = s.crc := by
  obtain ⟨u, r, rfl, hu⟩ := exec_next h
  rcases hu with rfl | ⟨hp, -⟩ | ⟨hp, -⟩ | ⟨w, -, rfl⟩ | ⟨w, -, rfl⟩ | ⟨-, rfl⟩ <;>
    try rfl
  · simp [hi] at hp
  · simp [hi] at hp

/-- Only WR.ADDR changes ADDR (R21). -/
theorem exec_addr {i : Instr} {s t : State} (h : exec i s = .next t) (hi : ∀ w, i ≠ .wrAddr w) :
    t.addr = s.addr := by
  obtain ⟨u, r, rfl, hu⟩ := exec_next h
  rcases hu with rfl | ⟨-, -, rfl⟩ |
    ⟨-, -, ⟨w, -, rfl⟩ | ⟨c, rfl⟩ | ⟨n, -, -, rfl⟩⟩ | ⟨w, hw, -⟩ | ⟨w, -, rfl⟩ | ⟨-, rfl⟩ <;>
    try rfl
  exact absurd hw (hi w)

/-- Only a buffer command changes PTR, REM and the window's record (R24, R79). -/
theorem exec_window {i : Instr} {s t : State} (h : exec i s = .next t) (hi : windowOf i = none) :
    t.ptr = s.ptr ∧ t.rem = s.rem ∧ t.winBase = s.winBase ∧ t.winLen = s.winLen := by
  obtain ⟨u, r, rfl, hu⟩ := exec_next h
  rcases hu with rfl | ⟨-, -, rfl⟩ |
    ⟨-, -, ⟨w, -, rfl⟩ | ⟨c, rfl⟩ | ⟨n, hn, -⟩⟩ | ⟨w, -, rfl⟩ | ⟨w, -, rfl⟩ | ⟨-, rfl⟩ <;>
    try exact ⟨rfl, rfl, rfl, rfl⟩
  simp [hi] at hn

/-- WR.STATUS aside, no instruction changes ERR_MEM, only WR.CMD changes ERR_CMD, and only a command ERR_BUSY
(R23, R98, R99). -/
theorem exec_errorBits {i : Instr} {s t : State} (h : exec i s = .next t) (hi : ∀ w, i ≠ .wrStatus w) :
    t.errMem = s.errMem ∧ ((∀ w, i ≠ .wrCmd w) → t.errCmd = s.errCmd) ∧
      (presentsCommand i = false → t.errBusy = s.errBusy) := by
  obtain ⟨u, r, rfl, hu⟩ := exec_next h
  rcases hu with rfl | ⟨hp, -, rfl⟩ |
    ⟨-, -, ⟨w, hw, rfl⟩ | ⟨c, rfl⟩ | ⟨n, -, -, rfl⟩⟩ | ⟨w, -, rfl⟩ | ⟨w, hw, -⟩ | ⟨-, rfl⟩ <;>
    try exact ⟨rfl, fun _ => rfl, fun _ => rfl⟩
  · exact ⟨rfl, fun _ => rfl, fun hn => by simp [hn] at hp⟩
  · exact ⟨rfl, fun hn => absurd hw (hn w), fun _ => rfl⟩
  · exact absurd hw (hi w)

/-- Only RD.CRC draws a free value (R88). -/
theorem exec_draws {i : Instr} {s t : State} (h : exec i s = .next t) (hi : i ≠ .rdCrc) : t.draws = s.draws := by
  obtain ⟨u, r, rfl, hu⟩ := exec_next h
  rcases hu with rfl | ⟨-, -, rfl⟩ |
    ⟨-, -, ⟨w, -, rfl⟩ | ⟨c, rfl⟩ | ⟨n, -, -, rfl⟩⟩ | ⟨w, -, rfl⟩ | ⟨w, -, rfl⟩ | ⟨hr, -⟩ <;>
    try rfl
  exact absurd hr hi

/-- Settles O45, part by part. -/
theorem instructionFrame : Obligations.InstructionFrame := by
  intro i s t h
  obtain ⟨hmem, hsilent, hrest⟩ := exec_environment h
  exact ⟨State.memRead_congr hmem hsilent, exec_crc h, exec_addr h, exec_window h, exec_errorBits h, exec_draws h,
    hmem, hsilent, hrest⟩

/-- A set bit stays set where 0 is written in its place (R92). -/
theorem stickyAfter_of_clear {w : Word} {e : ErrorCode} (h : w.getLsbD (errorCode e) = false) (old : Bool) :
    stickyAfter w e old = old := by
  simp [stickyAfter, h]

/-- The error bits after a write to STATUS (R92). -/
@[simp] theorem errorBit_clearErrors (s : State) (w : Word) (e : ErrorCode) :
    errorBit (s.clearErrors w) e = stickyAfter w e (errorBit s e) := by
  cases e <;> rfl

/-- Recording an error sets its own bit and no other (R23). -/
@[simp] theorem errorBit_raise (s : State) (d e : ErrorCode) :
    errorBit (s.raise d) e = (decide (d = e) || errorBit s e) := by
  cases d <;> cases e <;> simp [errorBit]

/-- A set error bit is set in every state with the same three bits. -/
theorem errorBit_kept {s t : State} {e : ErrorCode} (hc : t.errCmd = s.errCmd) (hb : t.errBusy = s.errBusy)
    (hm : t.errMem = s.errMem) (he : errorBit s e = true) : errorBit t e = true := by
  cases e with
  | cmd => exact hc.trans he
  | busy => exact hb.trans he
  | mem => exact hm.trans he

/-- An instruction clears a set error bit only by a WR.STATUS with a 1 in that bit. -/
theorem exec_errorBit {i : Instr} {s t : State} {e : ErrorCode} (h : exec i s = .next t)
    (he : errorBit s e = true) :
    errorBit t e = true ∨ ∃ w, i = .wrStatus w ∧ w.getLsbD (errorCode e) = true := by
  obtain ⟨u, r, rfl, hu⟩ := exec_next h
  suffices hset : errorBit u e = true ∨ ∃ w, i = .wrStatus w ∧ w.getLsbD (errorCode e) = true from
    hset.imp_left (errorBit_kept rfl rfl rfl)
  rcases hu with rfl | ⟨-, -, rfl⟩ |
    ⟨-, -, ⟨w, -, rfl⟩ | ⟨c, rfl⟩ | ⟨n, -, -, rfl⟩⟩ | ⟨w, -, rfl⟩ | ⟨w, hi, rfl⟩ | ⟨-, rfl⟩
  · exact .inl he
  · exact .inl (by simp [he])
  · exact .inl (by simp [he])
  · exact .inl (errorBit_kept rfl rfl rfl he)
  · exact .inl (errorBit_kept rfl rfl rfl he)
  · exact .inl (errorBit_kept rfl rfl rfl he)
  · cases hw : w.getLsbD (errorCode e) with
    | true => exact .inr ⟨w, hi, hw⟩
    | false => exact .inl (by rw [errorBit_clearErrors, stickyAfter_of_clear hw, he])
  · exact .inl (errorBit_kept rfl rfl rfl he)

/-- HOST's turn clears a set error bit only where its statement is a WR.STATUS with a 1 in that bit. -/
theorem hostTurn_errorBit {s t : State} {e : ErrorCode} (h : hostTurn s = .next t) (he : errorBit s e = true) :
    errorBit t e = true ∨ ∃ r dst w, fetchStmt s = some (.issue r dst) ∧ decode r = .ok (.wrStatus w) ∧
      w.getLsbD (errorCode e) = true := by
  rcases hostTurn_next h with ⟨-, rfl⟩ | ⟨v, mask, target, -, rfl⟩ | ⟨r, dst, i, u, hf, hd, hu, rfl⟩
  · exact .inl he
  · exact .inl (errorBit_kept rfl rfl rfl he)
  · have hpc : errorBit (s.setHostPc (s.hostPc + 1)) e = true := errorBit_kept rfl rfl rfl he
    rcases exec_errorBit hu hpc with hset | ⟨w, rfl, hw⟩
    · exact .inl (errorBit_kept (by simp) (by simp) (by simp) hset)
    · exact .inr ⟨r, dst, w, hf, hd, hw⟩

/-- ENGINE's turn clears no error bit. -/
theorem engineTurn_errorBit {s t : State} {e : ErrorCode} (h : engineTurn s = .next t) (he : errorBit s e = true) :
    errorBit t e = true := by
  rcases engineTurn_next h with ⟨rfl, -⟩ | ⟨-, -, -, rfl⟩ | ⟨b, -, -, -, rfl⟩
  · exact he
  · have habandon : errorBit (s.logRead s.ptr).abandon e = true := errorBit_kept rfl rfl rfl he
    have hset : errorBit ((s.logRead s.ptr).abandon.raise .mem) e = true := by simp [habandon]
    exact errorBit_kept rfl rfl rfl hset
  · exact errorBit_kept rfl rfl rfl he

/-- Settles O54, by the turn nothing scheduled takes or the scheduled event. -/
theorem errorBitsAreSticky : Obligations.ErrorBitsAreSticky := by
  intro s t e h he
  rcases step_next h with ⟨hs, h⟩ | ⟨ev, rest, hs, h⟩
  · simp only [idleTurn] at h
    split at h
    · exact .inl (engineTurn_errorBit h he)
    · rename_i hb
      have hmoves : hostMoves s := .inr ⟨hs, Bool.eq_false_of_not_eq_true hb⟩
      exact (hostTurn_errorBit h he).imp_right fun hw => .inr ⟨hmoves, hw⟩
  · have he' : errorBit (s.setSched rest) e = true := errorBit_kept rfl rfl rfl he
    cases ev with
    | host =>
      have hmoves : hostMoves s := .inl (by rw [hs]; rfl)
      exact (hostTurn_errorBit h he').imp_right fun hw => .inr ⟨hmoves, hw⟩
    | engine => exact .inl (engineTurn_errorBit h he')
    | reset => exact .inr (.inl (by rw [hs]; rfl))
    | store a b =>
      obtain ⟨-, rfl⟩ := storeArrives_next h
      exact .inl (errorBit_kept rfl rfl rfl he')
    | post a b =>
      obtain ⟨-, rfl⟩ := postTurn_next h
      exact .inl (errorBit_kept rfl rfl rfl he')
    | drain =>
      rcases drainTurn_next h with ⟨-, rfl⟩ | ⟨a, b, p, -, -, rfl⟩
      · exact .inl he'
      · exact .inl (errorBit_kept rfl rfl rfl he')

end Sys2Proof.Machine
end

section
/-!
PROOFS. PTR is not observable (R24, R124): an instruction on two states that differ in PTR alone answers two that do.
-/
namespace Sys2Proof.Machine

/-- The state with its PTR forgotten. -/
def State.erasePtr (s : State) : State :=
  { s with ptr := 0 }

/-- PTR aside, `r` and `r'` are the same outcome. -/
def samePtrErased (r r' : Result) : Prop :=
  onNext State.erasePtr r = onNext State.erasePtr r'

/-- A buffer command's effect on two states that differ in PTR alone. -/
theorem startBuffer_ptr (n : Half) (s : State) (p : Word) :
    samePtrErased (startBuffer n { s with ptr := p }) (startBuffer n s) := by
  cases h : s.storeOnWay s.addr n with
  | true => rw [startBuffer_race h, startBuffer_race (s := { s with ptr := p }) h]; rfl
  | false => rw [startBuffer_clear h, startBuffer_clear (s := { s with ptr := p }) h]; rfl

/-- A presented command's effect on two states that differ in PTR alone. -/
theorem commandEffect_ptr (c : Except CommandError Command) (s : State) (p : Word) :
    samePtrErased (commandEffect c { s with ptr := p }) (commandEffect c s) := by
  cases c with
  | error e => rfl
  | ok c =>
    cases c with
    | init => rfl
    | feed d => rfl
    | buf n => exact startBuffer_ptr n s p
    | lsf => exact startBuffer_ptr Config.lsfLen s p

/-- A response keeps two outcomes the same but for PTR. -/
theorem onNext_respond_ptr {r r' : Result} (h : samePtrErased r r') (a : Response) :
    samePtrErased (onNext (fun t => t.respond a) r) (onNext (fun t => t.respond a) r') := by
  have hswap (q : Result) : onNext State.erasePtr (onNext (fun t => t.respond a) q) =
      onNext (fun t => t.respond a) (onNext State.erasePtr q) := by cases q <;> rfl
  rw [samePtrErased, hswap, hswap, h]

/-- A CMD write differs in PTR alone where its command's effect does. -/
theorem hostCommand_ptr {f : State → Result} {s : State} {p : Word}
    (hf : samePtrErased (f { s with ptr := p }) (f s)) :
    samePtrErased (hostCommand f { s with ptr := p }) (hostCommand f s) := by
  cases hb : s.busy with
  | true =>
    rw [hostCommand, presentCommand_busy f (s := { s with ptr := p }) hb, hostCommand, presentCommand_busy f hb]
    rfl
  | false =>
    rw [hostCommand, presentCommand_idle f (s := { s with ptr := p }) hb, hostCommand, presentCommand_idle f hb]
    exact onNext_respond_ptr hf .okay

/-- Every instruction on two states that differ in PTR alone answers two that do. -/
theorem exec_ptr (i : Instr) (s : State) (p : Word) :
    samePtrErased (exec i { s with ptr := p }) (exec i s) := by
  cases i with
  | init => exact hostCommand_ptr (commandEffect_ptr (.ok .init) s p)
  | feed d => exact hostCommand_ptr (commandEffect_ptr (.ok (.feed d)) s p)
  | buf n => exact hostCommand_ptr (commandEffect_ptr (.ok (.buf n)) s p)
  | lsf => exact hostCommand_ptr (commandEffect_ptr (.ok .lsf) s p)
  | wrCmd w => exact hostCommand_ptr (commandEffect_ptr (decodeCommand w) s p)
  | rdCrc =>
    have hb : State.busy { s with ptr := p } = s.busy := rfl
    simp only [exec, execRdCrc, hb]
    split <;> rfl
  | wrCrc w => rfl
  | rdAddr => rfl
  | wrAddr w => rfl
  | rdCmd => rfl
  | rdStatus => rfl
  | wrStatus w => rfl

/-- Settles O57: two states that differ in PTR alone have the same observed state and response. -/
theorem ptrIsNotObservable : Obligations.PtrIsNotObservable := by
  intro i s p t u ht hu
  have h := exec_ptr i s p
  rw [samePtrErased, ht, hu] at h
  have he : u.erasePtr = t.erasePtr := Host.Outcome.next.inj h
  exact ⟨(congrArg observed he).symm, (congrArg State.response he).symm⟩

end Sys2Proof.Machine
end

section
/-!
PROOFS. The state after reset (R27).
-/
namespace Sys2Proof.Machine

/-- Settles O1: each element of the reset state is the value R27 gives it. -/
theorem resetValues : Obligations.ResetValues :=
  ⟨rfl, rfl, rfl, rfl, rfl, rfl, rfl, rfl, rfl⟩

end Sys2Proof.Machine
end

section
/-!
PROOFS. What the turns do, said forward: the turn of a scheduled event, HOST's turn at an instruction, ENGINE's turn at
a byte the memory holds, a store that meets a window byte and one that does not; and the turns that leave memory alone.
-/
namespace Sys2Proof.Machine

/-- A scheduled event is taken off the schedule and has its turn. -/
theorem step_scheduled {s : State} {e : Event} {rest : List Event} (h : s.sched = e :: rest) :
    step s = eventTurn e (s.setSched rest) := by
  simp only [step, takeTurn, h]

/-- With nothing scheduled and BUSY = 1 the step is ENGINE's turn (R122, log 6). -/
theorem step_unscheduled_busy {s : State} (h : s.sched = []) (hb : s.busy = true) : step s = engineTurn s := by
  simp only [step, takeTurn, h, idleTurn, hb, if_true]

/-- With nothing scheduled and BUSY = 0 the step is HOST's turn (log 6). -/
theorem step_unscheduled_idle {s : State} (h : s.sched = []) (hb : s.busy = false) : step s = hostTurn s := by
  simp [step, takeTurn, h, idleTurn, hb]

/-- HOST with no statement left does nothing (R113). -/
theorem hostTurn_done {s : State} (h : fetchStmt s = none) : hostTurn s = .next s := by
  simp only [hostTurn, h]

/-- HOST's turn at a request that decodes is the instruction, then the binding of its data (R57, R87). -/
theorem hostTurn_issue {s : State} {r : Request} {dst : Option Nat} {i : Instr}
    (hf : fetchStmt s = some (.issue r dst)) (hd : decode r = .ok i) :
    hostTurn s = onNext (fun t => t.bindName dst) (exec i (s.setHostPc (s.hostPc + 1))) := by
  simp only [hostTurn, hf, hostStmt, hostIssue, hd]

/-- ENGINE's turn folds in the byte the memory holds at PTR (R83). -/
theorem engineTurn_ok {s : State} {b : Byte} (hb : s.busy = true) (hp : s.storePending s.ptr = false)
    (hr : s.memRead s.ptr = .ok b) : engineTurn s = .next ((s.logRead s.ptr).foldByte b) := by
  simp [engineTurn, engineRead, hb, hp, hr]

/-- A store that reaches a window byte of a running command is the race (R42). -/
theorem storeArrives_race {s : State} {a : Word} (b : Byte) (h : s.inWindow a = true) :
    storeArrives a b s = .fault .bufferRace := by
  simp only [storeArrives, h, if_true]

/-- A store that reaches any other byte changes the memory. -/
theorem storeArrives_clear {s : State} {a : Word} (b : Byte) (h : s.inWindow a = false) :
    storeArrives a b s = .next (s.writeByte a b) := by
  simp [storeArrives, h]

/-- A store posted to a window byte of a running command is the race (R118). -/
theorem postTurn_race {s : State} {a : Word} (b : Byte) (h : s.inWindow a = true) :
    postTurn a b s = .fault .bufferRace := by
  simp only [postTurn, h, if_true]

/-- A store posted to any other byte joins the list of those on their way. -/
theorem postTurn_clear {s : State} {a : Word} (b : Byte) (h : s.inWindow a = false) :
    postTurn a b s = .next (s.postStore a b) := by
  simp [postTurn, h]

/-- The oldest store on its way leaves the list and reaches the memory (R41). -/
theorem drainTurn_cons {s : State} {a : Word} {b : Byte} {p : List (Word × Byte)} (h : s.pending = (a, b) :: p) :
    drainTurn s = storeArrives a b (s.setPending p) := by
  simp only [drainTurn, h]

/-- With no store on its way a drain does nothing. -/
theorem drainTurn_nil {s : State} (h : s.pending = []) : drainTurn s = .next s := by
  simp only [drainTurn, h]

/-- HOST's turn leaves the memory alone. -/
theorem hostTurn_memory {s t : State} (h : hostTurn s = .next t) : t.mem = s.mem ∧ t.silent = s.silent := by
  rcases hostTurn_next h with ⟨-, rfl⟩ | ⟨v, mask, target, -, rfl⟩ | ⟨r, dst, i, u, -, -, hu, rfl⟩
  · exact ⟨rfl, rfl⟩
  · exact ⟨rfl, rfl⟩
  · obtain ⟨hmem, hsilent, -⟩ := exec_environment hu
    exact ⟨by rw [State.bindName_mem, hmem, State.setHostPc_mem],
      by rw [State.bindName_silent, hsilent, State.setHostPc_silent]⟩

/-- ENGINE's turn leaves the memory alone (R30). -/
theorem engineTurn_memory {s t : State} (h : engineTurn s = .next t) : t.mem = s.mem ∧ t.silent = s.silent := by
  rcases engineTurn_next h with ⟨rfl, -⟩ | ⟨-, -, -, rfl⟩ | ⟨b, -, -, -, rfl⟩ <;> exact ⟨rfl, rfl⟩

/-- The turn taken when nothing is scheduled leaves the memory alone. -/
theorem idleTurn_memory {s t : State} (h : idleTurn s = .next t) : t.mem = s.mem ∧ t.silent = s.silent := by
  simp only [idleTurn] at h
  split at h
  · exact engineTurn_memory h
  · exact hostTurn_memory h

end Sys2Proof.Machine
end

section
/-!
PROOFS. Addresses (R28, R34, R39, R55): the window of a buffer command modulo 2^32, and the host register window.
-/
namespace Sys2Proof.Machine

/-- Byte `i` of a window is at its base plus `i`, modulo 2^32 (R34). -/
theorem toNat_windowAddr (base : Word) (i : Nat) : (windowAddr base i).toNat = (base.toNat + i) % 2 ^ 32 := by
  rw [windowAddr, BitVec.toNat_add, BitVec.toNat_ofNat, Nat.add_mod_mod]

/-- Settles O35: a window's addresses are those of modular addition. -/
theorem addressesWrap : Obligations.AddressesWrap :=
  ⟨fun base i => ⟨toNat_windowAddr base i, nextAddr_windowAddr base i⟩, rfl⟩

/-- DIR of a packed descriptor (R55). -/
@[simp] theorem descWrites_packFields (write : Bool) (size : BitVec 2) (off : BitVec 8) :
    descWrites (packFields write size off) = write := by
  simp [descWrites, packFields]

/-- SIZE of a packed descriptor (R55). -/
@[simp] theorem descSize_packFields (write : Bool) (size : BitVec 2) (off : BitVec 8) :
    descSize (packFields write size off) = size := by
  ext i hi
  simp only [descSize, packFields, BitVec.getElem_extractLsb', BitVec.getLsbD_or, BitVec.getLsbD_shiftLeft,
    BitVec.getLsbD_setWidth]
  interval_cases i <;> simp

/-- OFF of a packed descriptor (R55). -/
@[simp] theorem descOff_packFields (write : Bool) (size : BitVec 2) (off : BitVec 8) :
    descOff (packFields write size off) = off := by
  ext i hi
  simp only [descOff, packFields, BitVec.getElem_extractLsb', BitVec.getLsbD_or, BitVec.getLsbD_shiftLeft,
    BitVec.getLsbD_setWidth]
  interval_cases i <;> simp

/-- An access inside the register window has the descriptor with its offset (R39). -/
theorem accessDesc_inside (write : Bool) (size : BitVec 2) (off : BitVec 8) :
    accessDesc write size (Config.crcBase + off.setWidth 32) = some (packFields write size off) := by
  have hsub : Config.crcBase + off.setWidth 32 - Config.crcBase = off.setWidth 32 := by
    rw [BitVec.add_comm, BitVec.add_sub_cancel]
  have hlt : (off.setWidth 32 : Word).toNat < 256 := by
    rw [BitVec.toNat_setWidth_of_le (by decide)]
    exact off.isLt
  have hoff : (off.setWidth 32 : Word).setWidth 8 = off := by
    rw [BitVec.setWidth_setWidth_of_le _ (by decide), BitVec.setWidth_eq]
  rw [accessDesc, hsub, if_pos hlt, hoff]

/-- Settles O18: the offset is taken from the base, and its eight bits are the descriptor's. -/
theorem registerWindowDescriptor : Obligations.RegisterWindowDescriptor :=
  ⟨fun write size off => ⟨accessDesc_inside write size off, descWrites_packFields write size off,
      descSize_packFields write size off, descOff_packFields write size off⟩,
    fun _ _ _ h => if_neg (Nat.not_lt.mpr h)⟩

end Sys2Proof.Machine
end

section
/-!
PROOFS. A step runs the decoded instruction (R40, R87), and what stores do to the memory (R30, R41, R42, R43, R118).
-/
namespace Sys2Proof.Machine

/-- Settles O46: HOST's turn, scheduled or not. -/
theorem stepRunsDecodedInstruction : Obligations.StepRunsDecodedInstruction := by
  intro s r dst i hf hd
  refine ⟨fun rest hs => ?_, fun hs hb => ?_⟩
  · rw [step_scheduled hs]
    exact hostTurn_issue (s := s.setSched rest) hf hd
  · rw [step_unscheduled_idle hs hb]
    exact hostTurn_issue hf hd

/-- A store that meets no window byte of a running command changes the memory at its own byte only. -/
theorem storeArrives_outside {s : State} {a : Word} (b : Byte)
    (h : ¬ (s.busy = true ∧ ∃ i, i < s.winLen.toNat ∧ a = windowAddr s.winBase i)) :
    ∃ t, storeArrives a b s = .next t ∧ t = { s with mem := t.mem } ∧
      (a ∉ s.silent → t.memRead a = .ok b) ∧ ∀ x, x ≠ a → t.memRead x = s.memRead x :=
  ⟨s.writeByte a b, storeArrives_clear b (Bool.eq_false_of_not_eq_true fun hw => h (inWindow_iff.mp hw)), rfl,
    s.memRead_writeByte_same a b, fun _ hx => s.memRead_writeByte_other b hx⟩

/-- Settles O50: the store event's turn is the store reaching the memory. -/
theorem storeRacesOnlyInWindow : Obligations.StoreRacesOnlyInWindow := by
  intro s a b rest hs
  rw [step_scheduled hs]
  exact ⟨fun h => storeArrives_race b (inWindow_iff.mpr h), storeArrives_outside (s := s.setSched rest) b⟩

/-- Settles O58: the oldest store leaves the list and arrives, as a store of another agent does. -/
theorem drainedStoreReachesMemory : Obligations.DrainedStoreReachesMemory := by
  intro s rest hs
  have hstep : step s = drainTurn (s.setSched rest) := step_scheduled hs
  refine ⟨fun hp => hstep.trans (drainTurn_nil hp), fun a b p hp => ?_⟩
  rw [hstep, drainTurn_cons (s := s.setSched rest) hp]
  exact ⟨fun h => storeArrives_race b (inWindow_iff.mpr h),
    storeArrives_outside (s := (s.setSched rest).setPending p) b⟩

/-- Settles O59: the post event's turn, in the window and outside. -/
theorem postedStoreWaits : Obligations.PostedStoreWaits := by
  intro s a b rest hs
  rw [step_scheduled hs]
  refine ⟨fun h => postTurn_race b (inWindow_iff.mpr h), fun h => ?_⟩
  exact postTurn_clear (s := s.setSched rest) b (Bool.eq_false_of_not_eq_true fun hw => h (inWindow_iff.mp hw))

/-- A write changes what its own byte reads as, and no other. -/
theorem eq_of_memRead_writeByte_ne {s : State} {a x : Word} {b : Byte}
    (h : (s.writeByte x b).memRead a ≠ s.memRead a) : x = a :=
  by_contra fun hx => h (s.memRead_writeByte_other b (Ne.symm hx))

/-- Settles O52: every turn but a store's leaves the memory alone, and a store writes its own byte only. -/
theorem blockNeverWritesMemory : Obligations.BlockNeverWritesMemory := by
  intro s t a h hne
  have kept (hm : t.mem = s.mem ∧ t.silent = s.silent) : False := hne (State.memRead_congr hm.1 hm.2 a)
  rcases step_next h with ⟨-, h⟩ | ⟨e, rest, hs, h⟩
  · exact (kept (idleTurn_memory h)).elim
  · cases e with
    | host => exact (kept (hostTurn_memory (s := s.setSched rest) h)).elim
    | engine => exact (kept (engineTurn_memory (s := s.setSched rest) h)).elim
    | reset =>
      cases h
      exact (kept ⟨rfl, rfl⟩).elim
    | post x b =>
      obtain ⟨-, rfl⟩ := postTurn_next h
      exact (kept ⟨rfl, rfl⟩).elim
    | store x b =>
      obtain ⟨-, rfl⟩ := storeArrives_next h
      obtain rfl : x = a := eq_of_memRead_writeByte_ne (s := s.setSched rest) hne
      exact .inl ⟨b, rest, hs⟩
    | drain =>
      rcases drainTurn_next h with ⟨-, rfl⟩ | ⟨x, b, p, hp, -, rfl⟩
      · exact (kept ⟨rfl, rfl⟩).elim
      · obtain rfl : x = a := eq_of_memRead_writeByte_ne (s := (s.setSched rest).setPending p) hne
        exact .inr ⟨b, p, rest, hs, hp⟩

/-- A store keeps the memory canonical: an address's key is below 2^32 (R28). -/
theorem writeByte_memoryCanonical {s : State} (a : Word) (b : Byte) (h : memoryCanonical s) :
    memoryCanonical (s.writeByte a b) :=
  Memory.write_wf b (memKey_lt a) h

/-- A state with the same memory is as canonical. -/
theorem memoryCanonical_congr {s t : State} (hm : t.mem = s.mem) (h : memoryCanonical s) : memoryCanonical t := by
  rwa [memoryCanonical, hm]

/-- Settles O53, by the turn the step takes. -/
theorem memoryCanonicalKept : Obligations.MemoryCanonicalKept := by
  intro s t hs h
  obtain ⟨u, hu, hturn⟩ := step_turns h
  have hcanon : memoryCanonical u := by
    rcases hu with rfl | ⟨e, rest, -, rfl⟩ <;> exact hs
  rcases hturn with h | h | rfl | ⟨a, b, h⟩ | ⟨a, b, h⟩ | h
  · exact memoryCanonical_congr (engineTurn_memory h).1 hcanon
  · exact memoryCanonical_congr (hostTurn_memory h).1 hcanon
  · exact hcanon
  · obtain ⟨-, rfl⟩ := storeArrives_next h
    exact writeByte_memoryCanonical a b hcanon
  · obtain ⟨-, rfl⟩ := postTurn_next h
    exact hcanon
  · rcases drainTurn_next h with ⟨-, rfl⟩ | ⟨a, b, p, -, -, rfl⟩
    · exact hcanon
    · exact writeByte_memoryCanonical a b hcanon

end Sys2Proof.Machine
end

section
/-!
PROOFS. A buffer command run with nothing else scheduled (R33, R66, R85): `State.foldBytes` is the engine's byte step
over a list of bytes, and the run is that fold.
-/
namespace Sys2Proof.Machine

/-- The engine reads and folds in the bytes `bs`, one step each. -/
def State.foldBytes (s : State) : List Byte → State
  | [] => s
  | b :: bs => ((s.logRead s.ptr).foldByte b).foldBytes bs

@[simp] theorem State.foldBytes_nil (s : State) : s.foldBytes [] = s := rfl

@[simp] theorem State.foldBytes_cons (s : State) (b : Byte) (bs : List Byte) :
    s.foldBytes (b :: bs) = ((s.logRead s.ptr).foldByte b).foldBytes bs := rfl

@[simp] theorem State.foldBytes_crc (s : State) (bs : List Byte) : (s.foldBytes bs).crc = crc16From s.crc bs := by
  induction bs generalizing s with
  | nil => rfl
  | cons b bs ih => simp [ih]

@[simp] theorem State.foldBytes_errMem (s : State) (bs : List Byte) : (s.foldBytes bs).errMem = s.errMem := by
  induction bs generalizing s with
  | nil => rfl
  | cons b bs ih => simp [ih]

@[simp] theorem State.foldBytes_mem (s : State) (bs : List Byte) : (s.foldBytes bs).mem = s.mem := by
  induction bs generalizing s with
  | nil => rfl
  | cons b bs ih => simp [ih]

/-- Each byte takes one from REM. -/
theorem State.foldBytes_rem (s : State) (bs : List Byte) :
    (s.foldBytes bs).rem = s.rem - BitVec.ofNat 16 bs.length := by
  induction bs generalizing s with
  | nil => simp
  | cons b bs ih =>
    rw [foldBytes_cons, ih, foldByte_rem, logRead_rem, List.length_cons, Nat.add_comm, BitVec.ofNat_add, sub_sub]
    rfl

/-- The window that starts one byte on. -/
theorem windowAddr_nextAddr (base : Word) (i : Nat) : windowAddr (nextAddr base) i = windowAddr base (i + 1) := by
  rw [nextAddr, windowAddr, windowAddr, Nat.add_comm, BitVec.ofNat_add, BitVec.add_assoc]
  rfl

/-- A window's first byte is at its base. -/
@[simp] theorem windowAddr_zero (base : Word) : windowAddr base 0 = base :=
  BitVec.add_zero base

/-- The reads are those of the window at PTR, each byte once, in ascending order (R33). -/
theorem State.foldBytes_reads (s : State) (bs : List Byte) :
    (s.foldBytes bs).reads = ((List.range bs.length).map (windowAddr s.ptr)).reverse ++ s.reads := by
  induction bs generalizing s with
  | nil => rfl
  | cons b bs ih =>
    have hshift : windowAddr s.ptr ∘ Nat.succ = windowAddr (nextAddr s.ptr) :=
      funext fun i => (windowAddr_nextAddr s.ptr i).symm
    simp [ih, List.range_succ_eq_map, hshift]

/-- What memory holds behind the first byte. -/
theorem holdsBytes_tail {s : State} {base : Word} {b : Byte} {bs : List Byte} (h : holdsBytes s base (b :: bs)) :
    holdsBytes s (nextAddr base) bs := by
  intro i c hi
  rw [windowAddr_nextAddr]
  exact h (i + 1) c hi

/-- While BUSY = 1 a byte step takes one from REM without wrapping. -/
theorem toNat_rem_sub_one {s : State} (h : s.busy = true) : (s.rem - 1).toNat = s.rem.toNat - 1 := by
  have hpos : s.rem.toNat ≠ 0 := fun he => s.busy_iff.mp h (BitVec.eq_of_toNat_eq he)
  exact BitVec.toNat_sub_of_le (by simp [BitVec.le_def]; omega)

/-- With nothing scheduled, REM bytes held by the memory at PTR and no store on its way to them, the run folds them
in, one step each (R83, R85). -/
theorem run_foldBytes {bs : List Byte} {s : State} (hs : s.sched = []) (hrem : s.rem.toNat = bs.length)
    (hholds : holdsBytes s s.ptr bs) (hclear : ∀ i, i < bs.length → s.storePending (windowAddr s.ptr i) = false) :
    core.run bs.length s = .next (s.foldBytes bs) := by
  induction bs generalizing s with
  | nil => rfl
  | cons b bs ih =>
    have hb : s.busy = true := s.busy_iff.mpr fun h => by simp [h] at hrem
    have hread : s.memRead s.ptr = .ok b := by simpa using hholds 0 b rfl
    have hpend : s.storePending s.ptr = false := by simpa using hclear 0 (Nat.succ_pos _)
    have hstep : step s = .next ((s.logRead s.ptr).foldByte b) :=
      (step_unscheduled_busy hs hb).trans (engineTurn_ok hb hpend hread)
    rw [List.length_cons, run_succ _ hstep, State.foldBytes_cons]
    refine ih (s := (s.logRead s.ptr).foldByte b) hs ?_ (holdsBytes_tail hholds) fun i hi => ?_
    · exact (toNat_rem_sub_one hb).trans (by rw [hrem]; rfl)
    · have hnext := hclear (i + 1) (Nat.succ_lt_succ hi)
      rw [← windowAddr_nextAddr] at hnext
      exact hnext

/-- A buffer command presented with BUSY = 0 and no store on its way to its window starts that window (R79). -/
theorem execBuf_clear {s : State} {n : Half} (hb : s.busy = false) (h : s.storeOnWay s.addr n = false) :
    exec (.buf n) s = .next ((s.startWindow n).respond .okay) := by
  simp only [exec, execBuf, hostCommand, presentCommand_idle _ hb, bufEffect, startBuffer_clear h, onNext]

/-- Settles O29: BUF starts its window, and the run is the fold of the bytes the window holds. -/
theorem bufferCommandResult : Obligations.BufferCommandResult := by
  intro s bs hb hs hlen hholds hclear
  have hn : (BitVec.ofNat 16 bs.length).toNat = bs.length := Nat.mod_eq_of_lt hlen
  have haccept : s.storeOnWay s.addr (BitVec.ofNat 16 bs.length) = false :=
    storeOnWay_false_iff.mpr fun i hi => hclear i (hn ▸ hi)
  let t := (s.startWindow (BitVec.ofNat 16 bs.length)).respond .okay
  have hrun : core.run bs.length t = .next (t.foldBytes bs) := run_foldBytes hs hn hholds hclear
  refine ⟨t, t.foldBytes bs, execBuf_clear hb haccept, hrun, ?_, ?_, ?_, ?_, ?_⟩
  · exact t.foldBytes_crc bs
  · exact (State.idle_iff _).mpr ((t.foldBytes_rem bs).trans (BitVec.sub_self _))
  · exact t.foldBytes_errMem bs
  · exact t.foldBytes_mem bs
  · exact t.foldBytes_reads bs

end Sys2Proof.Machine
end

section
/-!
PROOFS. A byte outside the window does not matter to a command that runs with nothing scheduled and no host statement
left (R33, R81): PTR stays in the window, so each step commutes with the change of that byte.
-/
namespace Sys2Proof.Machine

/-- Nothing but ENGINE moves, its command keeps to its window, and `a` is outside that window. -/
def runsAloneOutside (a : Word) (s : State) : Prop :=
  s.sched = [] ∧ fetchStmt s = none ∧ windowTracked s ∧ isWindowByte s.winBase s.winLen a = false

/-- While a command runs PTR is one of its window's bytes (R33). -/
theorem ptr_inWindow {s : State} (ht : windowTracked s) (hb : s.busy = true) : s.inWindow s.ptr = true := by
  obtain ⟨hle, hptr⟩ := ht hb
  have hpos : s.rem.toNat ≠ 0 := fun h => s.busy_iff.mp hb (BitVec.eq_of_toNat_eq h)
  exact inWindow_iff.mpr ⟨hb, s.winLen.toNat - s.rem.toNat, by omega, hptr⟩

/-- The engine's byte step keeps PTR and REM in step with the window (R83). -/
theorem foldByte_windowTracked {s : State} (b : Byte) (ht : windowTracked s) (hb : s.busy = true) :
    windowTracked (s.foldByte b) := by
  intro hb'
  obtain ⟨hle, hptr⟩ := ht hb
  have hrem := toNat_rem_sub_one hb
  have hpos : s.rem.toNat ≠ 0 := fun h => s.busy_iff.mp hb (BitVec.eq_of_toNat_eq h)
  have hdone : s.winLen.toNat - (s.rem - 1).toNat = s.winLen.toNat - s.rem.toNat + 1 := by omega
  simp only [State.foldByte_rem, State.foldByte_winLen, State.foldByte_ptr, State.foldByte_winBase, hdone, hptr,
    nextAddr_windowAddr, and_true]
  omega

/-- A window just started is tracked. -/
theorem startWindow_windowTracked (s : State) (n : Half) : windowTracked (s.startWindow n) :=
  fun _ => ⟨Nat.le_refl _, by simp⟩

/-- ENGINE's turn commutes with the change of a byte that is not at PTR. -/
theorem engineTurn_writeByte {s : State} {a : Word} (b : Byte) (ha : s.ptr ≠ a) :
    engineTurn (s.writeByte a b) = onNext (fun t => t.writeByte a b) (engineTurn s) := by
  have hb : (s.writeByte a b).busy = s.busy := rfl
  have hp : (s.writeByte a b).storePending s.ptr = s.storePending s.ptr := rfl
  simp only [engineTurn, hb, State.writeByte_ptr, s.memRead_writeByte_other b ha]
  split
  · cases s.memRead s.ptr with
    | never => rfl
    | err => simp only [engineRead, State.writeByte_ptr, hp]; split <;> rfl
    | ok c => simp only [engineRead, State.writeByte_ptr, hp]; split <;> rfl
  · rfl

/-- ENGINE alone moves: the step is its turn, which is none with BUSY = 0. -/
theorem runsAloneOutside_step {a : Word} {s : State} (h : runsAloneOutside a s) : step s = engineTurn s := by
  obtain ⟨hs, hf, -, -⟩ := h
  cases hb : s.busy with
  | true => exact step_unscheduled_busy hs hb
  | false =>
    rw [step_unscheduled_idle hs hb, hostTurn_done hf]
    simp [engineTurn, hb]

/-- The step commutes with the change of the byte outside. -/
theorem step_writeByte {a : Word} {s : State} (b : Byte) (h : runsAloneOutside a s) :
    step (s.writeByte a b) = onNext (fun t => t.writeByte a b) (step s) := by
  have h' : runsAloneOutside a (s.writeByte a b) := h
  obtain ⟨-, -, htrack, hout⟩ := id h
  rw [runsAloneOutside_step h, runsAloneOutside_step h']
  cases hb : s.busy with
  | true =>
    refine engineTurn_writeByte b fun he => ?_
    have hin := ptr_inWindow htrack hb
    rw [he, State.inWindow, hout] at hin
    simp at hin
  | false =>
    have hb' : (s.writeByte a b).busy = false := hb
    simp [engineTurn, hb, hb', onNext]

/-- A step of ENGINE alone leaves ENGINE alone, with the same window. -/
theorem step_runsAloneOutside {a : Word} {s t : State} (h : runsAloneOutside a s) (hst : step s = .next t) :
    runsAloneOutside a t := by
  obtain ⟨hs, hf, htrack, hout⟩ := id h
  rw [runsAloneOutside_step h] at hst
  rcases engineTurn_next hst with ⟨rfl, -⟩ | ⟨-, -, -, rfl⟩ | ⟨c, hb, -, -, rfl⟩
  · exact h
  · exact ⟨hs, hf, fun hb => absurd hb (by simp [State.busy_iff]), hout⟩
  · exact ⟨hs, hf, foldByte_windowTracked (s := s.logRead s.ptr) c htrack hb, hout⟩

/-- A run of at least one step that answers next begins with such a step. -/
theorem run_succ_next {s t : State} {k : Nat} (h : core.run (k + 1) s = .next t) :
    ∃ u, step s = .next u ∧ core.run k u = .next t := by
  cases hst : step s with
  | next u => exact ⟨u, rfl, run_succ k hst ▸ h⟩
  | fault f => simp [Host.Core.run, show core.step s = .fault f from hst] at h
  | refused r => simp [Host.Core.run, show core.step s = .refused r from hst] at h

/-- A run of ENGINE alone commutes with the change of the byte outside. -/
theorem run_writeByte {a : Word} (b : Byte) {k : Nat} {s t : State} (h : runsAloneOutside a s)
    (hrun : core.run k s = .next t) : core.run k (s.writeByte a b) = .next (t.writeByte a b) := by
  induction k generalizing s with
  | zero =>
    cases hrun
    rfl
  | succ k ih =>
    obtain ⟨u, hst, hrest⟩ := run_succ_next hrun
    have hst' : step (s.writeByte a b) = .next (u.writeByte a b) := by rw [step_writeByte b h, hst]; rfl
    rw [run_succ k hst']
    exact ih (step_runsAloneOutside h hst) hrest

/-- LSF that is accepted with BUSY = 0 starts the window of 28 bytes (R81). -/
theorem execLsf_next {s t : State} (hb : s.busy = false) (h : exec .lsf s = .next t) :
    t = (s.startWindow 28).respond .okay := by
  rcases hostCommand_next h with ⟨hbusy, -⟩ | ⟨-, u, hu, rfl⟩
  · simp [hb] at hbusy
  · obtain ⟨-, rfl⟩ := startBuffer_next hu
    rfl

/-- Settles O34: LSF starts the same window in both memories, and the run commutes with the change of the byte. -/
theorem lsfIgnoresOtherBytes : Obligations.LsfIgnoresOtherBytes := by
  intro s a b u v k t hb hs hf ha hu hv hrun
  have hout : isWindowByte s.addr 28 a = false := decide_eq_false (Nat.not_lt.mpr ha)
  have hv' : v = u.writeByte a b := by rw [execLsf_next hb hu, execLsf_next (s := s.writeByte a b) hb hv]; rfl
  have halone : runsAloneOutside a u := by
    rw [execLsf_next hb hu]
    exact ⟨hs, hf, startWindow_windowTracked s 28, hout⟩
  rw [hv']
  exact run_writeByte b halone hrun

end Sys2Proof.Machine
end

section
/-!
PROOFS. The fields of a command word (R50, R51) and of a descriptor (R55): they determine it, and a mask acts on each of
them alone, so the masks of R52 and R55 speak of the fields that the decoder reads.
-/
namespace Sys2Proof.Machine

/-- A command word is the packing of its fields (R50, R51). -/
theorem packCommand_fields (w : Word) :
    packCommand (lenField w) (dataField w) (rsvField w) (opField w) = w := by
  apply BitVec.eq_of_getLsbD_eq
  intro i hi
  simp only [packCommand, lenField, dataField, rsvField, opField, BitVec.getLsbD_or, BitVec.getLsbD_shiftLeft,
    BitVec.getLsbD_setWidth, BitVec.getLsbD_extractLsb']
  interval_cases i <;> simp

/-- Two packed command words are equal exactly when their fields are. -/
theorem packCommand_inj {l l' : Half} {d d' : Byte} {r r' o o' : BitVec 4} :
    packCommand l d r o = packCommand l' d' r' o' ↔ l = l' ∧ d = d' ∧ r = r' ∧ o = o' := by
  constructor
  · intro h
    exact ⟨by simpa using congrArg lenField h, by simpa using congrArg dataField h, by simpa using congrArg rsvField h,
      by simpa using congrArg opField h⟩
  · rintro ⟨rfl, rfl, rfl, rfl⟩
    rfl

/-- A mask acts on each field of a command word alone. -/
theorem and_packCommand (w : Word) (l : Half) (d : Byte) (r o : BitVec 4) :
    w &&& packCommand l d r o =
      packCommand (lenField w &&& l) (dataField w &&& d) (rsvField w &&& r) (opField w &&& o) := by
  rw [← packCommand_fields (w &&& packCommand l d r o), packCommand_inj]
  refine ⟨?_, ?_, ?_, ?_⟩
  · exact BitVec.extractLsb'_and.trans (congrArg _ (lenField_packCommand l d r o))
  · exact BitVec.extractLsb'_and.trans (congrArg _ (dataField_packCommand l d r o))
  · exact BitVec.extractLsb'_and.trans (congrArg _ (rsvField_packCommand l d r o))
  · exact BitVec.extractLsb'_and.trans (congrArg _ (opField_packCommand l d r o))

/-- A masked command word compared field by field. -/
theorem and_packCommand_eq_iff {w : Word} {l l' : Half} {d d' : Byte} {r r' o o' : BitVec 4} :
    w &&& packCommand l d r o = packCommand l' d' r' o' ↔
      lenField w &&& l = l' ∧ dataField w &&& d = d' ∧ rsvField w &&& r = r' ∧ opField w &&& o = o' := by
  rw [and_packCommand, packCommand_inj]

/-- A word is a packed command word exactly when its fields are those packed. -/
theorem packCommand_eq_iff {w : Word} {l : Half} {d : Byte} {r o : BitVec 4} :
    packCommand l d r o = w ↔ l = lenField w ∧ d = dataField w ∧ r = rsvField w ∧ o = opField w := by
  conv_lhs => rw [← packCommand_fields w]
  exact packCommand_inj

/-- The mask of OP. -/
theorem and_opMask_iff (w : Word) (o : BitVec 4) : w &&& 0x0000000F = packCommand 0 0 0 o ↔ opField w = o := by
  change w &&& packCommand 0 0 0 (BitVec.allOnes 4) = packCommand 0 0 0 o ↔ _
  simp [and_packCommand_eq_iff, -BitVec.reduceAllOnes]

/-- The mask of RSV. -/
theorem and_rsvMask_iff (w : Word) : w &&& 0x000000F0 = 0 ↔ rsvField w = 0 := by
  change w &&& packCommand 0 0 (BitVec.allOnes 4) 0 = packCommand 0 0 0 0 ↔ _
  simp [and_packCommand_eq_iff, -BitVec.reduceAllOnes]

/-- The mask of DATA. -/
theorem and_dataMask_iff (w : Word) : w &&& 0x0000FF00 = 0 ↔ dataField w = 0 := by
  change w &&& packCommand 0 (BitVec.allOnes 8) 0 0 = packCommand 0 0 0 0 ↔ _
  simp [and_packCommand_eq_iff, -BitVec.reduceAllOnes]

/-- The mask of LEN. -/
theorem and_lenMask_iff (w : Word) : w &&& 0xFFFF0000 = 0 ↔ lenField w = 0 := by
  change w &&& packCommand (BitVec.allOnes 16) 0 0 0 = packCommand 0 0 0 0 ↔ _
  simp [and_packCommand_eq_iff, -BitVec.reduceAllOnes]

/-- FEED's mask and match (R52). -/
theorem and_feedMask_iff (w : Word) :
    w &&& 0xFFFF00FF = 2 ↔ lenField w = 0 ∧ rsvField w = 0 ∧ opField w = 2 := by
  change w &&& packCommand (BitVec.allOnes 16) 0 (BitVec.allOnes 4) (BitVec.allOnes 4) = packCommand 0 0 0 2 ↔ _
  simp [and_packCommand_eq_iff, -BitVec.reduceAllOnes]

/-- BUF's mask and match (R52). -/
theorem and_bufMask_iff (w : Word) :
    w &&& 0x0000FFFF = 3 ↔ dataField w = 0 ∧ rsvField w = 0 ∧ opField w = 3 := by
  change w &&& packCommand 0 (BitVec.allOnes 8) (BitVec.allOnes 4) (BitVec.allOnes 4) = packCommand 0 0 0 3 ↔ _
  simp [and_packCommand_eq_iff, -BitVec.reduceAllOnes]

/-- A descriptor is the packing of its fields (R55). -/
theorem packFields_fields (t : Desc) : packFields (descWrites t) (descSize t) (descOff t) = t := by
  apply BitVec.eq_of_getLsbD_eq
  intro i hi
  simp only [packFields, descWrites, descSize, descOff, BitVec.getLsbD_or, BitVec.getLsbD_shiftLeft,
    BitVec.getLsbD_setWidth, BitVec.getLsbD_extractLsb']
  interval_cases i <;> simp

/-- Two packed descriptors are equal exactly when their fields are. -/
theorem packFields_inj {b b' : Bool} {s s' : BitVec 2} {o o' : BitVec 8} :
    packFields b s o = packFields b' s' o' ↔ b = b' ∧ s = s' ∧ o = o' := by
  constructor
  · intro h
    exact ⟨by simpa using congrArg descWrites h, by simpa using congrArg descSize h,
      by simpa using congrArg descOff h⟩
  · rintro ⟨rfl, rfl, rfl⟩
    rfl

/-- A mask acts on each field of a descriptor alone. -/
theorem and_packFields (t : Desc) (b : Bool) (s : BitVec 2) (o : BitVec 8) :
    t &&& packFields b s o = packFields (descWrites t && b) (descSize t &&& s) (descOff t &&& o) := by
  rw [← packFields_fields (t &&& packFields b s o), packFields_inj]
  refine ⟨?_, ?_, ?_⟩
  · exact BitVec.getLsbD_and.trans (congrArg _ (descWrites_packFields b s o))
  · exact BitVec.extractLsb'_and.trans (congrArg _ (descSize_packFields b s o))
  · exact BitVec.extractLsb'_and.trans (congrArg _ (descOff_packFields b s o))

end Sys2Proof.Machine
end

section
/-!
PROOFS. The decoder is the inverse of the encoder (R48, R52, R53, R55): what it accepts is what the encoder produces.
The tables, the word checks and the examples (R59) follow.
-/
namespace Sys2Proof.Machine

/-- A command's word decodes to it (R52, R53). -/
theorem decodeCommand_encodeCommand (c : Command) : decodeCommand (encodeCommand c) = .ok c := by
  cases c <;> simp [encodeCommand, decodeCommand]

/-- A word that decodes to a command is that command's word (R48, R52). -/
theorem encodeCommand_of_decodeCommand {w : Word} {c : Command} (h : decodeCommand w = .ok c) :
    encodeCommand c = w := by
  simp only [decodeCommand, ne_eq, ite_not] at h
  split_ifs at h with hrsv hop hrest hop hlen hop hdata hop hrest <;> cases h
  · exact packCommand_eq_iff.mpr ⟨hrest.2.symm, hrest.1.symm, hrsv.symm, hop.symm⟩
  · exact packCommand_eq_iff.mpr ⟨hlen.symm, rfl, hrsv.symm, hop.symm⟩
  · exact packCommand_eq_iff.mpr ⟨rfl, hdata.symm, hrsv.symm, hop.symm⟩
  · exact packCommand_eq_iff.mpr ⟨hrest.2.symm, hrest.1.symm, hrsv.symm, hop.symm⟩

/-- The decoder selects a command exactly at that command's word. -/
theorem decodeCommand_ok_iff {w : Word} {c : Command} : decodeCommand w = .ok c ↔ encodeCommand c = w := by
  constructor
  · exact encodeCommand_of_decodeCommand
  · rintro rfl
    exact decodeCommand_encodeCommand c

/-- A descriptor of four bytes is packed from its direction and offset (R55). -/
theorem packDesc_of_descSize {t : Desc} (h : descSize t = 2) : packDesc (descWrites t) (descOff t) = t := by
  conv_rhs => rw [← packFields_fields t, h]
  rfl

/-- A four-byte access at an aligned offset is decoded by its offset (R55). -/
theorem decodeAccess_packDesc (b : Bool) {off : BitVec 8} (w : Word) (h : off.extractLsb' 0 2 = 0) :
    decodeAccess (packDesc b off) w = decodeRegister b off w := by
  simp [decodeAccess, packDesc, h]

/-- The request of a command decodes to that command (R47). -/
theorem decode_encodeCommand (c : Command) : decode (.command (encodeCommand c)) = .ok (commandInstr c) := by
  simp only [decode, decodeCommand_encodeCommand]

/-- Settles O15: a command's word is decoded by its fields, a transaction's descriptor by its offset. -/
theorem decodeEncodeRoundTrip : Obligations.DecodeEncodeRoundTrip := by
  intro i
  cases i with
  | init => exact decode_encodeCommand .init
  | feed d => exact decode_encodeCommand (.feed d)
  | buf n => exact decode_encodeCommand (.buf n)
  | lsf => exact decode_encodeCommand .lsf
  | rdCrc => exact decodeAccess_packDesc false 0 (by decide)
  | wrCrc w => exact decodeAccess_packDesc true w (by decide)
  | rdAddr => exact decodeAccess_packDesc false 0 (by decide)
  | wrAddr w => exact decodeAccess_packDesc true w (by decide)
  | rdCmd => exact decodeAccess_packDesc false 0 (by decide)
  | wrCmd w => exact decodeAccess_packDesc true w (by decide)
  | rdStatus => exact decodeAccess_packDesc false 0 (by decide)
  | wrStatus w => exact decodeAccess_packDesc true w (by decide)

/-- An offset that decodes is that of the transaction's descriptor, with the write data of a write. -/
theorem encode_of_decodeRegister {b : Bool} {off : BitVec 8} {w : Word} {i : Instr}
    (h : decodeRegister b off w = .ok i) : encode i = .access (packDesc b off) (if b then w else 0) := by
  simp only [decodeRegister] at h
  split_ifs at h with hoff hb hoff hb hoff hb hoff hb <;> cases h <;> simp [encode, hoff, hb]

/-- A descriptor that decodes is that of the transaction, with the write data of a write (R48, R55). -/
theorem encode_of_decodeAccess {t : Desc} {w : Word} {i : Instr} (h : decodeAccess t w = .ok i) :
    encode i = .access t (if descWrites t then w else 0) := by
  simp only [decodeAccess] at h
  split_ifs at h with hres hsize halign
  rw [encode_of_decodeRegister h, packDesc_of_descSize (not_not.mp hsize)]

/-- Settles O16: the decoder's accepting branches, one by one. -/
theorem encodeDecodeRoundTrip : Obligations.EncodeDecodeRoundTrip :=
  ⟨fun _ _ h => encodeCommand_of_decodeCommand h, fun _ _ _ h => encode_of_decodeAccess h⟩

/-- The descriptor of every transaction is one of the eight (R55). -/
theorem mem_admittedDescs_of_encode {i : Instr} {t : Desc} {w : Word} (h : encode i = .access t w) :
    t ∈ admittedDescs := by
  cases i <;> cases h <;> decide

/-- Settles O14: the rows are round trips, and only a transaction's descriptor decodes. -/
theorem descriptorTable : Obligations.DescriptorTable := by
  intro t w
  refine ⟨?_, ?_, ?_, ?_, ?_, ?_, ?_, ?_, fun ht => ?_⟩
  · rintro rfl; exact decodeEncodeRoundTrip .rdCrc
  · rintro rfl; exact decodeEncodeRoundTrip (.wrCrc w)
  · rintro rfl; exact decodeEncodeRoundTrip .rdAddr
  · rintro rfl; exact decodeEncodeRoundTrip (.wrAddr w)
  · rintro rfl; exact decodeEncodeRoundTrip .rdCmd
  · rintro rfl; exact decodeEncodeRoundTrip (.wrCmd w)
  · rintro rfl; exact decodeEncodeRoundTrip .rdStatus
  · rintro rfl; exact decodeEncodeRoundTrip (.wrStatus w)
  · cases hd : decodeAccess t w with
    | error e => exact ⟨e, rfl⟩
    | ok i => exact absurd (mem_admittedDescs_of_encode (encode_of_decodeAccess hd)) ht

/-- Every instruction's encoding passes the word checks (R52, R55). -/
theorem requestOk_encode (i : Instr) : requestOk (encode i) = true := by
  cases i with
  | init => exact Laws.Encodable.init
  | feed d => exact Laws.Encodable.feed d
  | buf n => exact Laws.Encodable.buf n
  | lsf => exact Laws.Encodable.lsf
  | rdCrc => exact Laws.Encodable.rdCrc
  | wrCrc w => exact Laws.Encodable.wrCrc w
  | rdAddr => exact Laws.Encodable.rdAddr
  | wrAddr w => exact Laws.Encodable.wrAddr w
  | rdCmd => exact Laws.Encodable.rdCmd
  | wrCmd w => exact Laws.Encodable.wrCmd w
  | rdStatus => exact Laws.Encodable.rdStatus
  | wrStatus w => exact Laws.Encodable.wrStatus w

/-- A command's encoding as an instruction is its word. -/
theorem encode_commandInstr (c : Command) : encode (commandInstr c) = .command (encodeCommand c) := by
  cases c <;> rfl

/-- The word check of a command, by fields (R50, R52). -/
theorem commandWordOk_iff (w : Word) :
    commandWordOk w = true ↔
      (opField w = 1 ∨ opField w = 2 ∨ opField w = 3 ∨ opField w = 4) ∧ rsvField w = 0 ∧
        (opField w = 2 ∨ dataField w = 0) ∧ (opField w = 3 ∨ lenField w = 0) := by
  simp only [commandWordOk, commandOpOk, commandRsvOk, commandDataOk, commandLenOk, Bool.and_eq_true, Bool.or_eq_true,
    beq_iff_eq, and_rsvMask_iff, and_dataMask_iff, and_lenMask_iff, or_assoc, and_assoc]
  rw [← and_opMask_iff w 1, ← and_opMask_iff w 2, ← and_opMask_iff w 3, ← and_opMask_iff w 4]
  rfl

/-- A command word that passes the check decodes. -/
theorem decodeCommand_of_commandWordOk {w : Word} (h : commandWordOk w = true) : ∃ c, decodeCommand w = .ok c := by
  obtain ⟨hop, hrsv, hdata, hlen⟩ := (commandWordOk_iff w).mp h
  simp only [decodeCommand_ok_iff]
  rcases hop with hop | hop | hop | hop
  · exact ⟨.init, packCommand_eq_iff.mpr (by simp_all)⟩
  · exact ⟨.feed (dataField w), packCommand_eq_iff.mpr (by simp_all)⟩
  · exact ⟨.buf (lenField w), packCommand_eq_iff.mpr (by simp_all)⟩
  · exact ⟨.lsf, packCommand_eq_iff.mpr (by simp_all)⟩

/-- The word check of a descriptor, by fields (R55, R94). -/
theorem descOk_iff (t : Desc) :
    descOk t = true ↔ descSize t = 2 ∧ descOff t &&& 0x03 = 0 ∧ descOff t &&& 0xF0 = 0 := by
  have mask (s s' : BitVec 2) (o o' : BitVec 8) : t &&& packFields false s o = packFields false s' o' ↔
      descSize t &&& s = s' ∧ descOff t &&& o = o' := by simp [and_packFields, packFields_inj]
  have hsize : t &&& 0x300 = 0x200 ↔ descSize t = 2 :=
    (mask (BitVec.allOnes 2) 2 0 0).trans (by simp [-BitVec.reduceAllOnes])
  have halign : t &&& 0x003 = 0 ↔ descOff t &&& 0x03 = 0 := (mask 0 0 0x03 0).trans (by simp)
  have hoff : t &&& 0x0F0 = 0 ↔ descOff t &&& 0xF0 = 0 := (mask 0 0 0xF0 0).trans (by simp)
  simp only [descOk, descSizeOk, descAlignOk, descOffsetOk, Bool.and_eq_true, beq_iff_eq, hsize, halign, hoff,
    and_assoc]

/-- The offsets that pass the check are those of the four registers (R19). -/
theorem registerOffset_of_masks : ∀ off : BitVec 8, off &&& 0x03 = 0 ∧ off &&& 0xF0 = 0 →
    off = 0x00 ∨ off = 0x04 ∨ off = 0x08 ∨ off = 0x0C := by
  decide

/-- A descriptor that passes the check decodes. -/
theorem decodeAccess_of_descOk {t : Desc} (w : Word) (h : descOk t = true) : ∃ i, decodeAccess t w = .ok i := by
  obtain ⟨hsize, hoff⟩ := (descOk_iff t).mp h
  rw [← packDesc_of_descSize hsize]
  rcases registerOffset_of_masks _ hoff with hoff | hoff | hoff | hoff <;> rw [hoff] <;>
    exact ⟨_, decodeAccess_packDesc _ w (by decide)⟩

/-- Settles O17: what passes a check decodes, and what decodes is an encoding, which passes. -/
theorem wordChecksAgreeWithDecoder : Obligations.WordChecksAgreeWithDecoder := by
  refine ⟨fun w => ⟨decodeCommand_of_commandWordOk, ?_⟩, fun t w => ⟨decodeAccess_of_descOk w, ?_⟩⟩
  · rintro ⟨c, h⟩
    have hok := requestOk_encode (commandInstr c)
    rwa [encode_commandInstr, encodeCommand_of_decodeCommand h] at hok
  · rintro ⟨i, h⟩
    have hok := requestOk_encode i
    rwa [encode_of_decodeAccess h] at hok

/-- INIT's mask and match are the whole word (R52). -/
theorem decodeCommand_init_iff {w : Word} : decodeCommand w = .ok .init ↔ w &&& 0xFFFFFFFF = 1 := by
  rw [show w &&& 0xFFFFFFFF = w from BitVec.and_allOnes, decodeCommand_ok_iff]
  exact eq_comm

/-- LSF's mask and match are the whole word (R52). -/
theorem decodeCommand_lsf_iff {w : Word} : decodeCommand w = .ok .lsf ↔ w &&& 0xFFFFFFFF = 4 := by
  rw [show w &&& 0xFFFFFFFF = w from BitVec.and_allOnes, decodeCommand_ok_iff]
  exact eq_comm

/-- FEED's mask and match select it, with DATA as its operand (R52). -/
theorem decodeCommand_feed_iff {w : Word} {d : Byte} :
    decodeCommand w = .ok (.feed d) ↔ w &&& 0xFFFF00FF = 2 ∧ d = dataField w := by
  rw [decodeCommand_ok_iff, and_feedMask_iff]
  refine packCommand_eq_iff.trans ⟨?_, ?_⟩
  · rintro ⟨hlen, hdata, hrsv, hop⟩
    exact ⟨⟨hlen.symm, hrsv.symm, hop.symm⟩, hdata⟩
  · rintro ⟨⟨hlen, hrsv, hop⟩, hdata⟩
    exact ⟨hlen.symm, hdata, hrsv.symm, hop.symm⟩

/-- BUF's mask and match select it, with LEN as its operand (R52). -/
theorem decodeCommand_buf_iff {w : Word} {n : Half} :
    decodeCommand w = .ok (.buf n) ↔ w &&& 0x0000FFFF = 3 ∧ n = lenField w := by
  rw [decodeCommand_ok_iff, and_bufMask_iff]
  refine packCommand_eq_iff.trans ⟨?_, ?_⟩
  · rintro ⟨hlen, hdata, hrsv, hop⟩
    exact ⟨⟨hdata.symm, hrsv.symm, hop.symm⟩, hlen⟩
  · rintro ⟨⟨hdata, hrsv, hop⟩, hlen⟩
    exact ⟨hlen, hdata.symm, hrsv.symm, hop.symm⟩

/-- A word is Illegal exactly when it matches no row (R53). -/
theorem decodeCommand_error_iff {w : Word} :
    (∃ e, decodeCommand w = .error e) ↔
      w &&& 0xFFFFFFFF ≠ 1 ∧ w &&& 0xFFFF00FF ≠ 2 ∧ w &&& 0x0000FFFF ≠ 3 ∧ w &&& 0xFFFFFFFF ≠ 4 := by
  constructor
  · rintro ⟨e, he⟩
    have hno (c : Command) : decodeCommand w ≠ .ok c := by simp [he]
    exact ⟨fun h => hno _ (decodeCommand_init_iff.mpr h), fun h => hno _ (decodeCommand_feed_iff.mpr ⟨h, rfl⟩),
      fun h => hno _ (decodeCommand_buf_iff.mpr ⟨h, rfl⟩), fun h => hno _ (decodeCommand_lsf_iff.mpr h)⟩
  · rintro ⟨hinit, hfeed, hbuf, hlsf⟩
    cases hd : decodeCommand w with
    | error e => exact ⟨e, rfl⟩
    | ok c =>
      cases c with
      | init => exact absurd (decodeCommand_init_iff.mp hd) hinit
      | feed d => exact absurd (decodeCommand_feed_iff.mp hd).1 hfeed
      | buf n => exact absurd (decodeCommand_buf_iff.mp hd).1 hbuf
      | lsf => exact absurd (decodeCommand_lsf_iff.mp hd) hlsf

/-- Settles O12, row by row: a row's mask and match say that the word is its command's encoding. -/
theorem decodeAgreesWithOpcodeMap : Obligations.DecodeAgreesWithOpcodeMap := fun _ =>
  ⟨decodeCommand_init_iff, fun _ => decodeCommand_feed_iff, fun _ => decodeCommand_buf_iff, decodeCommand_lsf_iff,
    decodeCommand_error_iff⟩

/-- Settles O13: the legal words are encodings; of the illegal ones the decoder is run. -/
theorem encodingExamples : Obligations.EncodingExamples :=
  ⟨decodeCommand_encodeCommand .init, decodeCommand_encodeCommand (.feed 0x41), decodeCommand_encodeCommand (.buf 9),
    decodeCommand_encodeCommand (.buf 28), decodeCommand_encodeCommand (.buf 65535), decodeCommand_encodeCommand .lsf,
    by simp only [List.forall_mem_cons]; exact ⟨rfl, rfl, rfl, rfl, rfl, rfl, rfl, by simp⟩⟩

end Sys2Proof.Machine
end

section
/-!
PROOFS. Commands presented while BUSY = 1 (R49, R99), and what HOST's turn does at a placed word (R47), at a branch
(R57) and in a round of `wait_idle` (R58).
-/
namespace Sys2Proof.Machine

/-- A CMD write while BUSY = 1 records ERR_BUSY, whatever the command's effect would be (R99). -/
theorem hostCommand_busy (f : State → Result) {s : State} (h : s.busy = true) :
    hostCommand f s = .next ((s.raise .busy).respond .okay) := by
  rw [hostCommand, presentCommand_busy f h]
  rfl

/-- Settles O40: each instruction that presents a command is a CMD write. -/
theorem commandWhileBusyDiscarded : Obligations.CommandWhileBusyDiscarded := by
  intro i s hi hb
  cases i with
  | init => exact hostCommand_busy initEffect hb
  | feed d => exact hostCommand_busy (feedEffect d) hb
  | buf n => exact hostCommand_busy (bufEffect n) hb
  | lsf => exact hostCommand_busy lsfEffect hb
  | wrCmd w => exact hostCommand_busy (commandEffect (decodeCommand w)) hb
  | _ => cases hi

/-- The instruction read from a table word is the one its request decodes to (log 18). -/
theorem decode_tableRequest {nbits w : Nat} {i : Instr} (h : decodeTableWord nbits w = some i) :
    decode (tableRequest nbits w) = .ok i := by
  revert h
  simp only [decodeTableWord]
  cases tableRequest nbits w with
  | access t d => cases hd : decodeAccess t d <;> simp [decode, hd, Except.toOption]
  | command c => cases hd : decodeCommand c <;> simp [decode, hd, Except.toOption]

/-- Binding no name changes no outcome. -/
theorem onNext_bindName_none (r : Result) : onNext (fun t => t.bindName none) r = r := by
  cases r <;> rfl

/-- Settles O47: HOST is scheduled at the placed statement, which binds no name. -/
theorem placedWordRunsNext : Obligations.PlacedWordRunsNext := by
  intro s nbits w i h
  have hsched : (s.withFetchWord nbits w).sched = .host :: s.sched := rfl
  rw [step_scheduled hsched, eventTurn, hostTurn_issue rfl (decode_tableRequest h), onNext_bindName_none]
  rfl

/-- HOST's turn at a branch (R57). -/
theorem hostTurn_bnz {s : State} {v : Nat} {mask : Word} {target : Nat} (h : fetchStmt s = some (.bnz v mask target)) :
    hostTurn s = .next (s.setHostPc (bnzNext v mask target s)) := by
  simp only [hostTurn, h, hostStmt]

/-- Settles O48: HOST's turn goes on where the branch says. -/
theorem hostBranch : Obligations.HostBranch := by
  intro s rest v mask target hs hf
  rw [step_scheduled hs, eventTurn, hostTurn_bnz (s := s.setSched rest) hf]
  refine ⟨fun h => ?_, fun h => ?_⟩
  · rw [bnzNext, if_pos (show (s.setSched rest).nameValue v &&& mask ≠ 0 from h)]
    rfl
  · rw [bnzNext, if_neg (not_not.mpr (show (s.setSched rest).nameValue v &&& mask = 0 from h))]
    rfl

/-- Bit 0 of the STATUS word is BUSY (R23, R90). -/
theorem statusWord_and_one (s : State) : s.statusWord &&& 1 = if s.busy then 1 else 0 := by
  have hbit : s.statusWord.getLsbD 0 = s.busy := by simp [State.statusWord]
  rw [show (1 : Word) = BitVec.twoPow 32 0 from rfl, BitVec.and_twoPow, hbit]
  rfl

/-- The state after `wait_idle` has read STATUS (R58). -/
def State.polled (s : State) (rest : List Event) : State :=
  { s with
    sched := rest
    hostPc := s.hostPc + 1
    response := some (.data s.statusWord)
    names := (statusName, s.statusWord) :: s.names }

/-- The first statement of `wait_idle` binds the STATUS word. -/
theorem step_polled {s : State} {rest : List Event} (hs : s.sched = .host :: rest)
    (hf : fetchStmt s = some (rdStmt .status statusName)) : step s = .next (s.polled rest) := by
  rw [step_scheduled hs, eventTurn,
    hostTurn_issue (s := s.setSched rest) hf (decodeEncodeRoundTrip .rdStatus)]
  rfl

/-- Settles O49: the branch tests bit 0 of the STATUS word just read. -/
theorem waitIdlePolls : Obligations.WaitIdlePolls := by
  intro s rest hs hrd hbnz
  have hpoll : step s = .next (s.polled (.host :: rest)) := step_polled hs hrd
  obtain ⟨htaken, hpast⟩ := hostBranch (s.polled (.host :: rest)) rest statusName 1 s.hostPc rfl hbnz
  have hvalue : (s.polled (.host :: rest)).nameValue statusName &&& 1 = if s.busy then 1 else 0 :=
    statusWord_and_one s
  rw [run_succ 1 hpoll]
  cases hb : s.busy with
  | true => exact ⟨_, run_succ 0 (htaken (by rw [hvalue, hb]; decide)), rfl, rfl, rfl⟩
  | false => exact ⟨_, run_succ 0 (hpast (by rw [hvalue, hb]; rfl)), rfl, rfl, rfl⟩

end Sys2Proof.Machine
end

section
/-!
PROOFS. The 16-bit form is the source's function (R64, R66), and the CRC is threaded, not combined (R68, R69).
-/
namespace Sys2Proof.Machine

/-- Cutting a 17-bit value to 16 bits already masks it. -/
theorem setWidth_and_mask (v : BitVec 17) : (v &&& 0xFFFF).setWidth 16 = v.setWidth 16 :=
  BitVec.setWidth_and.trans BitVec.and_allOnes

/-- Settles O3: the mask changes nothing in either branch of the source's bit step. -/
theorem bitstepIsTheSources : Obligations.BitstepIsTheSources := by
  intro c
  refine ⟨bitstep_eq_bitstepSrc c, ?_⟩
  rw [setWidth_and_mask, apply_ite (BitVec.setWidth 16)]
  exact bitstep_eq_bitstepSrc c

/-- Settles O5: the source's accumulator is the zero-extended CRC, and the last mask keeps its low half. -/
theorem crcIsTheSources : Obligations.CrcIsTheSources := by
  intro buf
  have hacc : accBytes 0x0000FFFF buf = (crc16 buf).setWidth 32 := accBytes_setWidth Config.crcInit buf
  have hlow : ((crc16 buf).setWidth 32 : Word).setWidth 16 = crc16 buf :=
    (BitVec.setWidth_setWidth_of_le _ (by decide)).trans (BitVec.setWidth_eq _)
  rw [crc16Src, hacc, and_low_half, hlow, hlow]

/-- The CRC is threaded through a sequence (R68). -/
theorem crc16From_append (c : Half) (u v : List Byte) : crc16From c (u ++ v) = crc16From (crc16From c u) v := by
  induction u generalizing c with
  | nil => rfl
  | cons b u ih => exact ih (step8 c b)

/-- The CRC of a sequence, threaded from that of its first part (R68). -/
theorem crc16_append (u v : List Byte) : crc16 (u ++ v) = crc16From (crc16 u) v :=
  crc16From_append Config.crcInit u v

/-- The CRC of "1234" (R68). -/
theorem crc16_1234 : crc16 [0x31, 0x32, 0x33, 0x34] = 0x946F := by decide

/-- The CRC goes on from "1234" to "56789" (R68). -/
theorem crc16From_56789 : crc16From 0x946F [0x35, 0x36, 0x37, 0x38, 0x39] = 0x772B := by decide +kernel

/-- Settles O6: the CRC is a left fold. -/
theorem threadingLaw : Obligations.ThreadingLaw :=
  ⟨crc16From_append, crc16_append, crc16_1234, crc16From_56789⟩

/-- Settles O7: the empty sequence and `C9 19` have one CRC, but not so after `FF FF`. -/
theorem restartDoesNotCompose : Obligations.RestartDoesNotCompose := by
  refine ⟨?_, crc16_1234, by decide +kernel, ?_⟩
  · rintro ⟨f, hf⟩
    have hsame : crc16 [] = crc16 [0xC9, 0x19] := by decide
    have hdiffer : crc16 ([0xFF, 0xFF] ++ []) ≠ crc16 ([0xFF, 0xFF] ++ [0xC9, 0x19]) := by decide
    exact hdiffer (by rw [hf, hf, hsame])
  · calc crc16 ([0x31, 0x32, 0x33, 0x34] ++ [0x35, 0x36, 0x37, 0x38, 0x39])
      _ = crc16From 0x946F [0x35, 0x36, 0x37, 0x38, 0x39] := by rw [crc16_append, crc16_1234]
      _ = 0x772B := crc16From_56789

end Sys2Proof.Machine
end

section
/-!
PROOFS. Linearity (R70): it passes from the bit step to the byte step, and on to the CRC of sequences of one length.
-/
namespace Sys2Proof.Machine

/-- The bit step is linear (R70). -/
theorem bitstep_xor (c d : Half) : bitstep (c ^^^ d) = bitstep c ^^^ bitstep d := by
  apply BitVec.eq_of_getLsbD_eq
  intro i _
  simp only [getLsbD_bitstep, BitVec.getLsbD_xor, Bool.and_xor_distrib_left, Bool.and_xor_distrib_right, Bool.xor_assoc,
    Bool.xor_left_comm]

/-- Bit steps are linear (R70). -/
theorem bitsteps_xor (n : Nat) (c d : Half) : bitsteps n (c ^^^ d) = bitsteps n c ^^^ bitsteps n d := by
  induction n generalizing c d with
  | zero => rfl
  | succ n ih => rw [bitsteps_succ, bitstep_xor, ih, bitsteps_succ, bitsteps_succ]

/-- The byte step puts its byte into bits 15:8 linearly. -/
theorem setWidth_xor_shiftLeft (b e : Byte) :
    ((b ^^^ e).setWidth 16 <<< 8 : Half) = b.setWidth 16 <<< 8 ^^^ e.setWidth 16 <<< 8 := by
  rw [BitVec.setWidth_xor, BitVec.shiftLeft_xor_distrib]

/-- The byte step is linear in both arguments jointly (R70). -/
theorem step8_xor (c d : Half) (b e : Byte) : step8 (c ^^^ d) (b ^^^ e) = step8 c b ^^^ step8 d e := by
  rw [step8, step8, step8, setWidth_xor_shiftLeft, ← bitsteps_xor]
  congr 1
  ac_rfl

/-- The bytewise XOR of two sequences (R70). -/
def xorBytes (A B : List Byte) : List Byte :=
  List.zipWith (fun a b => a ^^^ b) A B

/-- XOR with zero bytes changes nothing. -/
theorem xorBytes_zeros (A : List Byte) : xorBytes A (List.replicate A.length 0) = A := by
  induction A with
  | nil => rfl
  | cons a A ih => exact congrArg₂ List.cons BitVec.xor_zero ih

/-- The CRC is linear in its start value and its bytes jointly, on sequences of one length (R70). -/
theorem crc16From_xor (c d : Half) {A B : List Byte} (h : A.length = B.length) :
    crc16From (c ^^^ d) (xorBytes A B) = crc16From c A ^^^ crc16From d B := by
  induction A generalizing B c d with
  | nil =>
    obtain rfl := List.length_eq_zero_iff.mp h.symm
    rfl
  | cons a A ih =>
    obtain ⟨b, B, rfl⟩ := List.exists_cons_of_length_eq_add_one h.symm
    have hlen : A.length = B.length := Nat.succ.inj h
    rw [crc16From_cons, crc16From_cons, ← ih _ _ hlen, ← step8_xor]
    rfl

/-- The CRC is affine on sequences of one length (R70). -/
theorem crc16_xorBytes {A B : List Byte} (h : A.length = B.length) :
    crc16 (xorBytes A B) = crc16 A ^^^ crc16 B ^^^ crc16 (List.replicate A.length 0) := by
  have hlen : (xorBytes A B).length = A.length := by simp [xorBytes, h]
  calc crc16 (xorBytes A B)
    _ = crc16From (Config.crcInit ^^^ Config.crcInit ^^^ Config.crcInit)
          (xorBytes (xorBytes A B) (List.replicate A.length 0)) := by
        rw [← hlen, xorBytes_zeros]
        rfl
    _ = crc16 A ^^^ crc16 B ^^^ crc16 (List.replicate A.length 0) := by
        rw [crc16From_xor _ _ (by simp [hlen]), crc16From_xor _ _ h]
        rfl

/-- Settles O8: linearity passes from the bit step to the byte step and on to the CRC. -/
theorem affineLaw : Obligations.AffineLaw :=
  ⟨bitstep_xor, step8_xor, fun _ _ h => crc16_xorBytes h⟩

end Sys2Proof.Machine
end

section
/-!
PROOFS. Sensitivity (R71): the bit step is one-to-one, and so are the byte step and the CRC in each argument.
-/
namespace Sys2Proof.Machine

/-- The bit step is one-to-one: bit 0 of the result is bit 15 of the value, for POLY[0] is 1 (R71). -/
theorem bitstep_injective : Function.Injective bitstep := by
  intro c d h
  have hbit (i : Nat) : (bitstep c).getLsbD i = (bitstep d).getLsbD i := by rw [h]
  simp only [getLsbD_bitstep] at hbit
  have htop : c.getLsbD 15 = d.getLsbD 15 := by simpa [Config.poly] using hbit 0
  apply BitVec.eq_of_getLsbD_eq
  intro i hi
  rcases Nat.lt_succ_iff_lt_or_eq.mp hi with hlt | rfl
  · have hnext := hbit (i + 1)
    rw [htop] at hnext
    simpa [Nat.succ_lt_succ hlt] using hnext
  · exact htop

/-- Bit steps are one-to-one. -/
theorem bitsteps_injective (n : Nat) : Function.Injective (bitsteps n) := by
  induction n with
  | zero => exact Function.injective_id
  | succ n ih => exact ih.comp bitstep_injective

/-- The byte step is one-to-one in the value. -/
theorem step8_injective_left (b : Byte) : Function.Injective (fun c => step8 c b) := by
  intro c d h
  exact (BitVec.xor_left_inj _).mp (bitsteps_injective 8 h)

/-- The byte step is one-to-one in the byte. -/
theorem step8_injective_right (c : Half) : Function.Injective (step8 c) := by
  intro b e h
  have hhigh := (BitVec.xor_right_inj _).mp (bitsteps_injective 8 h)
  apply BitVec.eq_of_getLsbD_eq
  intro i hi
  have hbit := congrArg (fun v => v.getLsbD (i + 8)) hhigh
  simpa [hi, show i < 16 by omega, show i + 8 < 16 by omega] using hbit

/-- The CRC of a sequence is one-to-one in the value it starts from. -/
theorem crc16From_injective (v : List Byte) : Function.Injective (fun c => crc16From c v) := by
  induction v with
  | nil => exact Function.injective_id
  | cons b v ih => exact ih.comp (step8_injective_left b)

/-- Two sequences that differ in one byte have two CRCs. -/
theorem crc16_changed_byte {b e : Byte} (h : e ≠ b) (u v : List Byte) :
    crc16 (u ++ e :: v) ≠ crc16 (u ++ b :: v) := by
  rw [crc16_append, crc16_append]
  exact fun heq => h (step8_injective_right _ (crc16From_injective v heq))

/-- Settles O9: the byte with the bit flipped is another byte. -/
theorem singleBitSensitivity : Obligations.SingleBitSensitivity := by
  intro u v b k hk
  refine crc16_changed_byte (fun heq => ?_) u v
  have hbit := congrArg (fun x => x.getLsbD k) heq
  simp [hk] at hbit

end Sys2Proof.Machine
end

section
/-!
PROOFS. The table form and the residue (R72, R74): bit steps whose carries are all 0 only shift, so a low byte shifts up,
and a value's own high byte, folded in, shifts that byte out.
-/
namespace Sys2Proof.Machine

/-- A bit step with no carry is a shift. -/
theorem bitstep_of_carry_false {c : Half} (h : c.getLsbD 15 = false) : bitstep c = c <<< 1 := by
  simp only [bitstep, h]
  exact BitVec.xor_zero

/-- As long as no carry comes out, bit steps are a shift. -/
theorem bitsteps_eq_shiftLeft {n : Nat} {c : Half} (h : c.toNat * 2 ^ n < 2 ^ 16) : bitsteps n c = c <<< n := by
  induction n generalizing c with
  | zero => exact (BitVec.shiftLeft_zero c).symm
  | succ n ih =>
    have hpow : 2 * c.toNat * 2 ^ n < 2 ^ 16 := by rwa [Nat.mul_comm 2, Nat.mul_assoc, ← Nat.pow_succ']
    have htwo : 2 * c.toNat < 2 ^ 16 := Nat.lt_of_le_of_lt (Nat.le_mul_of_pos_right _ (Nat.two_pow_pos n)) hpow
    have hcarry : c.getLsbD 15 = false :=
      (BitVec.msb_eq_getLsbD_last c).symm.trans (BitVec.msb_eq_false_iff_two_mul_lt.mpr htwo)
    have hshift : (c <<< 1).toNat = 2 * c.toNat := by
      rw [BitVec.toNat_shiftLeft, Nat.shiftLeft_eq, Nat.mul_comm, Nat.mod_eq_of_lt htwo]
    rw [bitsteps_succ, bitstep_of_carry_false hcarry, ih (by rwa [hshift]), ← BitVec.shiftLeft_add, Nat.add_comm]

/-- A value with a byte XORed into bits 15:8 is its low byte and that XOR above it. -/
theorem split_bytes (c : Half) (b : Byte) :
    c ^^^ b.setWidth 16 <<< 8 =
      (c.extractLsb' 0 8).setWidth 16 ^^^ (c.extractLsb' 8 8 ^^^ b).setWidth 16 <<< 8 := by
  apply BitVec.eq_of_getLsbD_eq
  intro i hi
  interval_cases i <;> simp

/-- The low byte shifted up is the value shifted up. -/
theorem low_byte_shiftLeft (c : Half) : (c.extractLsb' 0 8).setWidth 16 <<< 8 = c <<< 8 := by
  apply BitVec.eq_of_getLsbD_eq
  intro i hi
  interval_cases i <;> simp

/-- The byte step from 0, an entry of the table (R74). -/
theorem step8_zero_left (b : Byte) : step8 0x0000 b = bitsteps 8 (b.setWidth 16 <<< 8) :=
  congrArg (bitsteps 8) BitVec.zero_xor

/-- The byte step by table: the low byte only shifts, the high byte and the byte fed meet in the table's index (R74). -/
theorem step8_eq_table (c : Half) (b : Byte) :
    step8 c b = c <<< 8 ^^^ step8 0x0000 (c.extractLsb' 8 8 ^^^ b) := by
  have hlow : bitsteps 8 ((c.extractLsb' 0 8).setWidth 16) = c <<< 8 := by
    rw [bitsteps_eq_shiftLeft (by rw [BitVec.toNat_setWidth_of_le (by decide)]; omega), low_byte_shiftLeft]
  rw [step8, split_bytes, bitsteps_xor, hlow, step8_zero_left]

/-- Settles O11: the byte step is linear, and 8 bit steps of a low byte have no carry. -/
theorem tableForm : Obligations.TableForm := step8_eq_table

/-- Folding a value's own high byte into it shifts that byte out. -/
theorem step8_high_byte (c : Half) : step8 c (c.extractLsb' 8 8) = c <<< 8 := by
  have hzero : step8 0x0000 0#8 = 0#16 := by decide
  rw [step8_eq_table, BitVec.xor_self, hzero, BitVec.xor_zero]

/-- The high byte of a value shifted up is its low byte. -/
theorem high_byte_shiftLeft (c : Half) : (c <<< 8).extractLsb' 8 8 = c.extractLsb' 0 8 := by
  apply BitVec.eq_of_getLsbD_eq
  intro i hi
  interval_cases i <;> simp

/-- Folding a value's own two bytes into it, high byte first, leaves 0 (R72). -/
theorem step8_own_bytes (c : Half) : step8 (step8 c (c.extractLsb' 8 8)) (c.extractLsb' 0 8) = 0x0000 := by
  rw [step8_high_byte, ← high_byte_shiftLeft, step8_high_byte, ← BitVec.shiftLeft_add]
  exact BitVec.shiftLeft_eq_zero (by decide)

/-- Settles O10: each appended byte shifts itself out; least significant byte first, the empty sequence gives 0 and
`00` does not. -/
theorem residueLaw : Obligations.ResidueLaw := by
  refine ⟨fun buf => ?_, ?_, by decide +kernel, step8_own_bytes 0x95E0, by decide⟩
  · rw [crc16_append]
    exact step8_own_bytes (crc16 buf)
  · rintro ⟨r, hr⟩
    exact absurd ((hr []).trans (hr [0x00]).symm) (by decide)

end Sys2Proof.Machine
end

section
/-!
PROOFS. The stream commands INIT and FEED with BUSY = 0 (R76, R77), and a stream of them (R78): each instruction that may
stand in it leaves the block idle and folds into CRC the byte it feeds, if it feeds one.
-/
namespace Sys2Proof.Machine

/-- A CMD write with BUSY = 0 is the effect of its command and `okay` (R87, R91). -/
theorem hostCommand_idle (f : State → Result) {s : State} (hb : s.busy = false) :
    hostCommand f s = onNext (fun t => t.respond .okay) (f s) := by
  rw [hostCommand, presentCommand_idle f hb]

/-- INIT with BUSY = 0 (R76). -/
theorem exec_init_idle {s : State} (hb : s.busy = false) :
    exec .init s = .next ((s.loadCrc Config.crcInit).respond .okay) :=
  hostCommand_idle initEffect hb

/-- FEED with BUSY = 0 (R77). -/
theorem exec_feed_idle (d : Byte) {s : State} (hb : s.busy = false) :
    exec (.feed d) s = .next ((s.loadCrc (step8 s.crc d)).respond .okay) :=
  hostCommand_idle (feedEffect d) hb

/-- A legal word written to CMD is its command, in every state (R91). -/
theorem exec_wrCmd_of_decode {w : Word} {c : Command} (h : decodeCommand w = .ok c) (s : State) :
    exec (.wrCmd w) s = exec (commandInstr c) s := by
  simp only [exec, execWrCmd, h]
  cases c <;> rfl

/-- An illegal word written to CMD with BUSY = 0 records ERR_CMD (R98). -/
theorem exec_wrCmd_illegal {w : Word} {e : CommandError} {s : State} (h : decodeCommand w = .error e)
    (hb : s.busy = false) : exec (.wrCmd w) s = .next ((s.raise .cmd).respond .okay) := by
  simp only [exec, execWrCmd, h]
  exact hostCommand_idle _ hb

/-- A word that is no command's encoding is illegal (R53). -/
theorem decodeCommand_error_of_ne_encode {w : Word} (h : ∀ c, encodeCommand c ≠ w) :
    ∃ e, decodeCommand w = .error e := by
  cases hd : decodeCommand w with
  | error e => exact ⟨e, rfl⟩
  | ok c => exact absurd (encodeCommand_of_decodeCommand hd) (h c)

/-- An instruction that completes is followed by the rest of the list. -/
theorem execAll_cons {i : Instr} {s t : State} (h : exec i s = .next t) (is : List Instr) :
    execAll (i :: is) s = execAll is t := by
  rw [execAll, h]

/-- Settles O19: INIT is one equation, and the only encoding with OP = 1 is its own. -/
theorem initStartsNewCrc : Obligations.InitStartsNewCrc := by
  refine ⟨fun s hb => exec_init_idle hb, fun s hb => ?_, fun w hop hw => ?_⟩
  · let t := (s.loadCrc Config.crcInit).respond .okay
    have hagain : exec .init t = .next t := exec_init_idle (s := t) hb
    rw [execAll_cons (exec_init_idle hb), execAll_cons hagain, execAll_cons (exec_init_idle hb)]
  · refine decodeCommand_error_of_ne_encode fun c hc => ?_
    subst hc
    change opField _ = 1 at hop
    cases c with
    | init => exact hw rfl
    | feed d => simp [encodeCommand] at hop
    | buf n => simp [encodeCommand] at hop
    | lsf => simp [encodeCommand] at hop

/-- Settles O20: FEED is one equation, and the only encodings with OP = 2 are its own, with RSV and LEN zero. -/
theorem feedFoldsItsByte : Obligations.FeedFoldsItsByte := by
  refine ⟨fun d s hb => exec_feed_idle d hb, fun w hop hbad => ?_, by decide, by decide, by decide, by decide⟩
  refine decodeCommand_error_of_ne_encode fun c hc => ?_
  subst hc
  change opField _ = 2 at hop
  change rsvField _ ≠ 0 ∨ lenField _ ≠ 0 at hbad
  cases c with
  | feed d => simp [encodeCommand] at hbad
  | init => simp [encodeCommand] at hop
  | buf n => simp [encodeCommand] at hop
  | lsf => simp [encodeCommand] at hop

/-- A CMD write that may stand in a stream carries a FEED, whose byte it feeds, or an illegal word, which feeds none. -/
theorem keepsStream_wrCmd {w : Word} (h : keepsStream (.wrCmd w) = true) :
    (∃ d, decodeCommand w = .ok (.feed d) ∧ streamByte (.wrCmd w) = some d) ∨
      (∃ e, decodeCommand w = .error e ∧ streamByte (.wrCmd w) = none) := by
  simp only [keepsStream] at h
  simp only [streamByte]
  cases hd : decodeCommand w with
  | error e => exact .inr ⟨e, rfl, rfl⟩
  | ok c =>
    cases c with
    | feed d => exact .inl ⟨d, rfl, rfl⟩
    | init => simp [hd] at h
    | buf n => simp [hd] at h
    | lsf => simp [hd] at h

/-- An instruction that may stand in a stream completes, leaves the block idle and folds in the byte it feeds. -/
theorem exec_keepsStream {i : Instr} {s : State} (hb : s.busy = false) (hi : keepsStream i = true) :
    ∃ t, exec i s = .next t ∧ t.busy = false ∧ t.crc = crc16From s.crc ([i].filterMap streamByte) := by
  cases i with
  | feed d => exact ⟨_, exec_feed_idle d hb, hb, rfl⟩
  | wrCmd w =>
    rcases keepsStream_wrCmd hi with ⟨d, hd, hbyte⟩ | ⟨e, hd, hbyte⟩
    · exact ⟨_, (exec_wrCmd_of_decode hd s).trans (exec_feed_idle d hb), hb, by simp [hbyte]⟩
    · exact ⟨_, exec_wrCmd_illegal hd hb, hb, by simp [hbyte]⟩
  | rdCrc => exact ⟨s.respond (.data (s.crc.setWidth 32)), by simp [exec, execRdCrc, hb, hostRead], hb, rfl⟩
  | wrCrc w => exact ⟨_, rfl, hb, rfl⟩
  | rdAddr => exact ⟨_, rfl, hb, rfl⟩
  | wrAddr w => exact ⟨_, rfl, hb, rfl⟩
  | rdCmd => exact ⟨_, rfl, hb, rfl⟩
  | rdStatus => exact ⟨_, rfl, hb, rfl⟩
  | wrStatus w => exact ⟨_, rfl, hb, rfl⟩
  | init => cases hi
  | buf n => cases hi
  | lsf => cases hi

/-- A stream completes from every idle state, with CRC threaded through the bytes it feeds (R68, R78). -/
theorem execAll_keepsStream {is : List Instr} {s : State} (hb : s.busy = false)
    (his : ∀ i ∈ is, keepsStream i = true) :
    ∃ t, execAll is s = .next t ∧ t.busy = false ∧ t.crc = crc16From s.crc (is.filterMap streamByte) := by
  induction is generalizing s with
  | nil => exact ⟨s, rfl, hb, rfl⟩
  | cons i is ih =>
    obtain ⟨hi, hrest⟩ := List.forall_mem_cons.mp his
    obtain ⟨u, hu, hbu, hcu⟩ := exec_keepsStream hb hi
    obtain ⟨t, ht, hbt, hct⟩ := ih hbu hrest
    refine ⟨t, (execAll_cons hu is).trans ht, hbt, ?_⟩
    rw [hct, hcu, ← crc16From_append, ← List.filterMap_append, List.singleton_append]

/-- Settles O21: INIT makes CRC the initial value that the stream is threaded from; LSF is BUF over 28 bytes. -/
theorem streamEquivalence : Obligations.StreamEquivalence := by
  refine ⟨fun s is hb his => ?_, fun s hb => ⟨fun n hclear => ?_, fun hclear => ?_⟩⟩
  · obtain ⟨t, ht, hbt, hct⟩ := execAll_keepsStream (s := (s.loadCrc Config.crcInit).respond .okay) hb his
    exact ⟨t, (execAll_cons (exec_init_idle hb) is).trans ht, hbt, hct⟩
  · exact ⟨_, execBuf_clear hb hclear, rfl⟩
  · exact ⟨_, execBuf_clear (n := 28) hb hclear, rfl⟩

end Sys2Proof.Machine
end

section
/-!
PROOFS. ENGINE's turn, said forward for each answer of the memory (R83, R84), as the step of a scheduled engine event.
-/
namespace Sys2Proof.Machine

/-- ENGINE's turn is not enabled with BUSY = 0 (R83). -/
theorem engineTurn_idle {s : State} (hb : s.busy = false) : engineTurn s = .next s := by
  simp [engineTurn, hb]

/-- ENGINE's turn ends its command where the memory answers `err` at PTR (R84). -/
theorem engineTurn_err {s : State} (hb : s.busy = true) (hp : s.storePending s.ptr = false)
    (hr : s.memRead s.ptr = .err) : engineTurn s = .next (s.logRead s.ptr).memoryError := by
  simp [engineTurn, engineRead, hb, hp, hr]

/-- A byte step leaves BUSY = 0 exactly if one byte was left (R25, R83). -/
theorem foldByte_idle_iff (s : State) (b : Byte) : (s.foldByte b).busy = false ↔ s.rem = 1 := by
  rw [State.idle_iff, State.foldByte_rem, sub_eq_zero]

/-- Settles O26: the engine event's turn with BUSY = 0, and at a byte the memory holds. -/
theorem engineStepFoldsOneByte : Obligations.EngineStepFoldsOneByte := by
  intro s rest hs
  have hstep : step s = engineTurn (s.setSched rest) := step_scheduled hs
  refine ⟨fun hb => hstep.trans (engineTurn_idle hb), fun b hb hp hr => ?_⟩
  exact ⟨_, hstep.trans (engineTurn_ok (s := s.setSched rest) hb hp hr), foldByte_idle_iff _ b, rfl⟩

/-- Settles O27: the engine event's turn at an answer `err`. -/
theorem memoryErrorEndsCommand : Obligations.MemoryErrorEndsCommand := by
  intro s rest hs hb hp hr
  have hstep : step s = engineTurn (s.setSched rest) := step_scheduled hs
  exact ⟨_, hstep.trans (engineTurn_err (s := s.setSched rest) hb hp hr), rfl, rfl⟩

end Sys2Proof.Machine
end

section
/-!
PROOFS. The end of a running command (R85): a reset aside, only ENGINE's turn clears BUSY, and without a memory error
that turn is the byte step on the window's last byte.
-/
namespace Sys2Proof.Machine

/-- No instruction clears BUSY: a buffer command presented while BUSY = 1 is discarded (R99). -/
theorem exec_busy {i : Instr} {s t : State} (hb : s.busy = true) (h : exec i s = .next t) : t.busy = true := by
  obtain ⟨u, r, rfl, hu⟩ := exec_next h
  rcases hu with rfl | ⟨-, -, rfl⟩ | ⟨-, hidle, -⟩ | ⟨w, -, rfl⟩ | ⟨w, -, rfl⟩ | ⟨-, rfl⟩
  · exact hb
  · exact hb
  · simp [hb] at hidle
  · exact hb
  · exact hb
  · exact hb

/-- HOST's turn does not clear BUSY. -/
theorem hostTurn_busy {s t : State} (hb : s.busy = true) (h : hostTurn s = .next t) : t.busy = true := by
  rcases hostTurn_next h with ⟨-, rfl⟩ | ⟨v, mask, target, -, rfl⟩ | ⟨r, dst, i, u, -, -, hu, rfl⟩
  · exact hb
  · exact hb
  · have hbu : u.busy = true := exec_busy (s := s.setHostPc (s.hostPc + 1)) hb hu
    exact (State.busy_congr (u.bindName_rem dst)).trans hbu

/-- An event other than ENGINE's turn and a reset does not clear BUSY. -/
theorem eventTurn_busy {e : Event} {s t : State} (hb : s.busy = true) (h : eventTurn e s = .next t)
    (hengine : e ≠ .engine) (hreset : e ≠ .reset) : t.busy = true := by
  cases e with
  | host => exact hostTurn_busy hb h
  | engine => exact absurd rfl hengine
  | reset => exact absurd rfl hreset
  | store a b =>
    obtain ⟨-, rfl⟩ := storeArrives_next h
    exact hb
  | post a b =>
    obtain ⟨-, rfl⟩ := postTurn_next h
    exact hb
  | drain =>
    rcases drainTurn_next h with ⟨-, rfl⟩ | ⟨a, b, p, -, -, rfl⟩
    · exact hb
    · exact hb

/-- A step that clears BUSY and is no reset is ENGINE's turn. -/
theorem step_clears_busy {s t : State} (hb : s.busy = true) (h : step s = .next t) (ht : t.busy = false)
    (hreset : s.sched.head? ≠ some .reset) : ∃ es, engineTurn (s.setSched es) = .next t := by
  rcases step_next h with ⟨hs, -⟩ | ⟨e, rest, hs, he⟩
  · have hsame : s.setSched [] = s := by rw [← hs]; rfl
    exact ⟨[], by rw [hsame, ← step_unscheduled_busy hs hb, h]⟩
  · by_cases hengine : e = .engine
    · subst hengine
      exact ⟨rest, he⟩
    · have hne : e ≠ .reset := fun hr => hreset (by rw [hs, hr]; rfl)
      have hbt : t.busy = true := eventTurn_busy (s := s.setSched rest) hb he hengine hne
      simp [ht] at hbt

/-- A turn of ENGINE that clears BUSY and leaves the run unmarked is the byte step on the last byte left. -/
theorem engineTurn_clears_busy {s t : State} (hb : s.busy = true) (h : engineTurn s = .next t)
    (ht : t.busy = false) (hok : t.memFaulted = false) :
    ∃ b, s.rem = 1 ∧ s.memRead s.ptr = .ok b ∧ t = (s.logRead s.ptr).foldByte b := by
  rcases engineTurn_next h with ⟨rfl, -⟩ | ⟨-, -, -, rfl⟩ | ⟨b, -, -, hr, rfl⟩
  · simp [hb] at ht
  · cases hok
  · exact ⟨b, (foldByte_idle_iff (s.logRead s.ptr) b).mp ht, hr, rfl⟩

/-- The byte step on the last byte left makes the bytes read so far the whole window (R85). -/
theorem foldByte_last {s : State} {b : Byte} (hs : commandInvariant s) (hrem : s.rem = 1)
    (hr : s.memRead s.ptr = .ok b) :
    ∃ bs : List Byte, bs.length = s.winLen.toNat ∧ holdsBytes s s.winBase bs ∧ (s.foldByte b).crc = crc16 bs := by
  obtain ⟨-, htrack, hpart⟩ := hs
  have hb : s.busy = true := s.busy_iff.mpr (by rw [hrem]; decide)
  obtain ⟨hle, hptr⟩ := htrack hb
  obtain ⟨bs, hn, hholds, hc⟩ := hpart hb
  have hone : s.rem.toNat = 1 := by rw [hrem]; rfl
  refine ⟨bs ++ [b], ?_, holdsBytes_snoc hholds (by rwa [hn, ← hptr]), ?_⟩
  · rw [List.length_append, List.length_singleton]
    omega
  · rw [State.foldByte_crc, hc]
    exact (crc16From_snoc _ bs b).symm

/-- Settles O30: the step is ENGINE's, and it folds in the last byte. -/
theorem lastByteGivesWindowCrc : Obligations.LastByteGivesWindowCrc := by
  intro s t hs hb h ht hok hreset
  obtain ⟨es, hengine⟩ := step_clears_busy hb h ht hreset
  obtain ⟨b, hrem, hr, rfl⟩ := engineTurn_clears_busy (s := s.setSched es) hb hengine ht hok
  let u := (s.setSched es).logRead s.ptr
  have hinv : commandInvariant u := commandInvariant_congr rfl hs
  exact foldByte_last (s := u) hinv hrem hr

end Sys2Proof.Machine
end

section
/-!
PROOFS. A running command ends (R86, R122): where every read is answered, each step takes a byte from REM or ends the
command with a memory error.
-/
namespace Sys2Proof.Machine

/-- ENGINE runs alone: nothing is scheduled, every read is answered, and no host store is on its way. -/
def runsAnswered (s : State) : Prop :=
  s.sched = [] ∧ s.silent = [] ∧ s.pending = []

/-- A memory with no silent address answers every read. -/
theorem memRead_ne_never {s : State} (h : s.silent = []) (a : Word) : s.memRead a ≠ .never := by
  simp only [State.memRead, h, List.not_mem_nil, if_false]
  split <;> simp

/-- A step of ENGINE alone ends the command, or takes one from REM and leaves ENGINE alone. -/
theorem runsAnswered_step {s : State} (h : runsAnswered s) (hb : s.busy = true) :
    ∃ t, step s = .next t ∧ (t.busy = false ∨ (runsAnswered t ∧ t.rem = s.rem - 1)) := by
  obtain ⟨hs, hsilent, hpending⟩ := h
  have hp : s.storePending s.ptr = false := by simp [State.storePending, hpending]
  rw [step_unscheduled_busy hs hb]
  cases hr : s.memRead s.ptr with
  | never => exact absurd hr (memRead_ne_never hsilent s.ptr)
  | err => exact ⟨_, engineTurn_err hb hp hr, .inl rfl⟩
  | ok b => exact ⟨_, engineTurn_ok hb hp hr, .inr ⟨⟨hs, hsilent, hpending⟩, rfl⟩⟩

/-- A command of ENGINE alone with `n` bytes left ends after at most `n` steps. -/
theorem runsAnswered_terminates {n : Nat} {s : State} (h : runsAnswered s) (hn : s.rem.toNat = n) :
    ∃ k t, k ≤ n ∧ core.run k s = .next t ∧ t.busy = false := by
  induction n generalizing s with
  | zero => exact ⟨0, s, Nat.le_refl 0, run_zero s, s.idle_iff.mpr (BitVec.eq_of_toNat_eq hn)⟩
  | succ n ih =>
    have hb : s.busy = true := s.busy_iff.mpr fun h0 => by simp [h0] at hn
    obtain ⟨t, hst, hend | ⟨ht, hrem⟩⟩ := runsAnswered_step h hb
    · exact ⟨1, t, Nat.succ_le_succ (Nat.zero_le n), run_succ 0 hst, hend⟩
    · have hleft : t.rem.toNat = n := by rw [hrem, toNat_rem_sub_one hb, hn, Nat.add_sub_cancel]
      obtain ⟨k, u, hk, hrun, hu⟩ := ih ht hleft
      exact ⟨k + 1, u, Nat.succ_le_succ hk, (run_succ k hst).trans hrun, hu⟩

/-- Settles O33, by induction on the bytes left. -/
theorem commandTerminates : Obligations.CommandTerminates :=
  fun _ hs hsilent hpending => runsAnswered_terminates ⟨hs, hsilent, hpending⟩ rfl

end Sys2Proof.Machine
end

section
/-!
PROOFS. BUF and LSF at issue with BUSY = 0 (R79 to R81), and LSF as BUF of 28 bytes (R82).
-/
namespace Sys2Proof.Machine

/-- LSF is BUF over 28 bytes (R82). -/
theorem exec_lsf_eq_buf (s : State) : exec .lsf s = exec (.buf 28) s := rfl

/-- BUF that is accepted with BUSY = 0 starts its window (R79). -/
theorem execBuf_next {n : Half} {s t : State} (hb : s.busy = false) (h : exec (.buf n) s = .next t) :
    t = (s.startWindow n).respond .okay := by
  rcases hostCommand_next h with ⟨hbusy, -⟩ | ⟨-, u, hu, rfl⟩
  · simp [hb] at hbusy
  · obtain ⟨-, rfl⟩ := startBuffer_next hu
    rfl

/-- A started window is busy exactly if it has a byte (R25, R79). -/
theorem startWindow_busy_iff (s : State) (n : Half) : (s.startWindow n).busy = true ↔ n ≠ 0 := by
  rw [State.busy_iff, State.startWindow_rem]

/-- RD.CRC with BUSY = 0 returns CRC (R88). -/
theorem exec_rdCrc_idle {s : State} (hb : s.busy = false) :
    exec .rdCrc s = .next (s.respond (.data (s.crc.setWidth 32))) := by
  simp [exec, execRdCrc, hb, hostRead]

/-- No host store is on its way to an empty window. -/
theorem storeOnWay_zero (s : State) (base : Word) : s.storeOnWay base 0 = false :=
  storeOnWay_false_iff.mpr fun _ hi => absurd hi (Nat.not_lt_zero _)

/-- Settles O22: BUF is one equation, the only encodings with OP = 3 are its own, and WR.ADDR starts no window. -/
theorem bufStartsItsWindow : Obligations.BufStartsItsWindow := by
  refine ⟨fun n s hb hclear => execBuf_clear hb hclear, fun n s t hb h => ?_, fun w hop hbad => ?_, fun a s t h => ?_⟩
  · rw [execBuf_next hb h]
    exact startWindow_busy_iff s n
  · refine decodeCommand_error_of_ne_encode fun c hc => ?_
    subst hc
    change opField _ = 3 at hop
    change rsvField _ ≠ 0 ∨ dataField _ ≠ 0 at hbad
    cases c with
    | buf n => simp [encodeCommand] at hbad
    | _ => simp [encodeCommand] at hop
  · obtain ⟨hptr, hrem, -⟩ := exec_window h rfl
    exact ⟨hptr, hrem, exec_crc h rfl⟩

/-- Settles O23: the empty window starts with no byte left. -/
theorem emptyBufCompletesAtOnce : Obligations.EmptyBufCompletesAtOnce := by
  intro s hb
  let t := (s.startWindow 0).respond .okay
  have hidle : t.busy = false := rfl
  exact ⟨t, execBuf_clear hb (storeOnWay_zero s s.addr), rfl, rfl, hidle, rfl, rfl, engineTurn_idle hidle,
    exec_rdCrc_idle hidle⟩

/-- Settles O24: LSF starts the window of BUF 28, and the only encoding with OP = 4 is its own. -/
theorem lsfStartsItsWindow : Obligations.LsfStartsItsWindow := by
  refine ⟨fun s hb hclear => ?_, fun w hop hw => ?_⟩
  · exact ⟨_, (exec_lsf_eq_buf s).trans (execBuf_clear hb hclear), (startWindow_busy_iff s 28).mpr (by decide), rfl⟩
  · refine decodeCommand_error_of_ne_encode fun c hc => ?_
    subst hc
    change opField _ = 4 at hop
    cases c with
    | lsf => exact hw rfl
    | _ => simp [encodeCommand] at hop

/-- Settles O25: the two commands have one effect, and the word is BUF 28's encoding. -/
theorem lsfIsBuf28 : Obligations.LsfIsBuf28 := by
  intro s
  have hword : decodeCommand 0x001C0003 = .ok (.buf 28) := decodeCommand_encodeCommand (.buf 28)
  exact ⟨exec_lsf_eq_buf s, (exec_lsf_eq_buf s).trans (exec_wrCmd_of_decode hword s).symm⟩

end Sys2Proof.Machine
end

section
/-!
PROOFS. Where a transition may stop (R97, R104): `faultsOnlyIf` is a bound on an outcome, said of each operation once
and passed on to the turns and to the step.
-/
namespace Sys2Proof.Machine

/-- The outcome is BufferRace only where `race` holds, HostBusError only where `busError` does, and no refusal. -/
def faultsOnlyIf (race busError : Prop) : Result → Prop
  | .next _ => True
  | .fault .bufferRace => race
  | .fault .hostBusError => busError
  | .refused _ => False

/-- HOST's next statement is a transaction that is not admitted (R94). -/
def hostIllegal (s : State) : Prop :=
  ∃ r dst e, fetchStmt s = some (.issue r dst) ∧ decode r = .error e

/-- HOST's next statement presents a buffer command to whose window a host store is on its way (R119). -/
def hostRaces (s : State) : Prop :=
  ∃ r dst i n, fetchStmt s = some (.issue r dst) ∧ decode r = .ok i ∧ windowOf i = some n ∧
    s.storeOnWay s.addr n = true

/-- A bound with weaker conditions. -/
theorem faultsOnlyIf_mono {p p' q q' : Prop} {r : Result} (h : faultsOnlyIf p q r) (hp : p → p') (hq : q → q') :
    faultsOnlyIf p' q' r := by
  match r, h with
  | .next _, _ => trivial
  | .fault .bufferRace, h => exact hp h
  | .fault .hostBusError, h => exact hq h

/-- A bound splits a fault into its two cases. -/
theorem faultsOnlyIf_fault {p q : Prop} {f : Fault} (h : faultsOnlyIf p q (.fault f)) :
    (f = .hostBusError ∧ q) ∨ (f = .bufferRace ∧ p) := by
  cases f with
  | hostBusError => exact .inl ⟨rfl, h⟩
  | bufferRace => exact .inr ⟨rfl, h⟩

/-- A bound whose conditions both fail leaves a next state only. -/
theorem faultsOnlyIf_next {p q : Prop} {r : Result} (h : faultsOnlyIf p q r) (hp : ¬ p) (hq : ¬ q) :
    ∃ t, r = .next t := by
  match r, h with
  | .next t, _ => exact ⟨t, rfl⟩
  | .fault .bufferRace, h => exact absurd h hp
  | .fault .hostBusError, h => exact absurd h hq

/-- Going on from a next state keeps a bound. -/
theorem onNext_faultsOnlyIf {p q : Prop} {r : Result} (f : State → State) (h : faultsOnlyIf p q r) :
    faultsOnlyIf p q (onNext f r) := by
  match r, h with
  | .next _, _ => trivial
  | .fault .bufferRace, h => exact h
  | .fault .hostBusError, h => exact h

/-- A buffer command races only where a host store is on its way to its window (R119). -/
theorem startBuffer_faultsOnlyIf (n : Half) (s : State) :
    faultsOnlyIf (s.storeOnWay s.addr n = true) False (startBuffer n s) := by
  cases h : s.storeOnWay s.addr n with
  | true => rw [startBuffer_race h]; trivial
  | false => rw [startBuffer_clear h]; trivial

/-- A command's effect races only where a host store is on its way to the window it has. -/
theorem commandEffect_faultsOnlyIf (c : Except CommandError Command) (s : State) :
    faultsOnlyIf (∃ n, c.toOption.bind commandWindow = some n ∧ s.storeOnWay s.addr n = true) False
      (commandEffect c s) := by
  match c with
  | .error _ => trivial
  | .ok .init => trivial
  | .ok (.feed _) => trivial
  | .ok (.buf n) => exact faultsOnlyIf_mono (startBuffer_faultsOnlyIf n s) (fun h => ⟨n, rfl, h⟩) id
  | .ok .lsf => exact faultsOnlyIf_mono (startBuffer_faultsOnlyIf 28 s) (fun h => ⟨28, rfl, h⟩) id

/-- A CMD write stops only with BUSY = 0, and then only as its command's effect does (R91, R99). -/
theorem hostCommand_faultsOnlyIf {p q : Prop} {f : State → Result} {s : State} (h : faultsOnlyIf p q (f s)) :
    faultsOnlyIf (s.busy = false ∧ p) q (hostCommand f s) := by
  cases hb : s.busy with
  | true => rw [hostCommand_busy f hb]; trivial
  | false =>
    rw [hostCommand_idle f hb]
    exact onNext_faultsOnlyIf _ (faultsOnlyIf_mono h (fun hp => ⟨rfl, hp⟩) id)

/-- An instruction stops only as a buffer command presented with BUSY = 0 while a host store is on its way to its window
(R87, R119). -/
theorem exec_faultsOnlyIf (i : Instr) (s : State) :
    faultsOnlyIf (s.busy = false ∧ ∃ n, windowOf i = some n ∧ s.storeOnWay s.addr n = true) False (exec i s) := by
  have command (c : Except CommandError Command) := hostCommand_faultsOnlyIf (commandEffect_faultsOnlyIf c s)
  cases i with
  | init => exact command (.ok .init)
  | feed d => exact command (.ok (.feed d))
  | buf n => exact command (.ok (.buf n))
  | lsf => exact command (.ok .lsf)
  | wrCmd w => exact command (decodeCommand w)
  | rdCrc =>
    simp only [exec, execRdCrc]
    split <;> trivial
  | wrCrc w => trivial
  | rdAddr => trivial
  | wrAddr w => trivial
  | rdCmd => trivial
  | rdStatus => trivial
  | wrStatus w => trivial

/-- A store that reaches the memory races only with a running command (R42). -/
theorem storeArrives_faultsOnlyIf (a : Word) (b : Byte) (s : State) :
    faultsOnlyIf (s.busy = true) False (storeArrives a b s) := by
  cases h : s.inWindow a with
  | true => rw [storeArrives_race b h]; exact (inWindow_iff.mp h).1
  | false => rw [storeArrives_clear b h]; trivial

/-- A store that is posted races only with a running command (R118). -/
theorem postTurn_faultsOnlyIf (a : Word) (b : Byte) (s : State) :
    faultsOnlyIf (s.busy = true) False (postTurn a b s) := by
  cases h : s.inWindow a with
  | true => rw [postTurn_race b h]; exact (inWindow_iff.mp h).1
  | false => rw [postTurn_clear b h]; trivial

/-- A drain races only with a running command (R118). -/
theorem drainTurn_faultsOnlyIf (s : State) : faultsOnlyIf (s.busy = true) False (drainTurn s) := by
  cases h : s.pending with
  | nil => rw [drainTurn_nil h]; trivial
  | cons p rest => rw [drainTurn_cons h]; exact storeArrives_faultsOnlyIf p.1 p.2 (s.setPending rest)

/-- ENGINE's answer to a read races only where a store is on its way to the byte at PTR (log 3). -/
theorem engineRead_faultsOnlyIf (s : State) (r : MemAnswer) :
    faultsOnlyIf (s.storePending s.ptr = true) False (engineRead s r) := by
  cases r with
  | never => trivial
  | err | ok b =>
    simp only [engineRead]
    split
    · assumption
    · trivial

/-- ENGINE's turn races only with BUSY = 1, where it is enabled (R83, log 3). -/
theorem engineTurn_faultsOnlyIf (s : State) : faultsOnlyIf (s.busy = true) False (engineTurn s) := by
  cases hb : s.busy with
  | false => rw [engineTurn_idle hb]; trivial
  | true =>
    simp only [engineTurn, hb, if_true]
    exact faultsOnlyIf_mono (engineRead_faultsOnlyIf s _) (fun _ => trivial) id

/-- HOST's turn at a request that does not decode is HostBusError (R94, R101). -/
theorem hostTurn_illegal {s : State} {r : Request} {dst : Option Nat} {e : AccessError}
    (hf : fetchStmt s = some (.issue r dst)) (hd : decode r = .error e) : hostTurn s = .fault .hostBusError := by
  simp only [hostTurn, hf, hostStmt, hostIssue, hd]

/-- HOST's turn stops only at a transaction that is not admitted, or as its instruction does. -/
theorem hostTurn_faultsOnlyIf (s : State) : faultsOnlyIf (hostRaces s) (hostIllegal s) (hostTurn s) := by
  cases hf : fetchStmt s with
  | none => rw [hostTurn_done hf]; trivial
  | some st =>
    cases st with
    | bnz v mask target => rw [hostTurn_bnz hf]; trivial
    | issue r dst =>
      cases hd : decode r with
      | error e => rw [hostTurn_illegal hf hd]; exact ⟨r, dst, e, hf, hd⟩
      | ok i =>
        rw [hostTurn_issue hf hd]
        refine onNext_faultsOnlyIf _ (faultsOnlyIf_mono (exec_faultsOnlyIf i _) ?_ False.elim)
        rintro ⟨-, n, hn, hstore⟩
        exact ⟨r, dst, i, n, hf, hd, hn, hstore⟩

/-- A scheduled event stops only by a race with a running command, unless it is HOST's. -/
theorem eventTurn_faultsOnlyIf (e : Event) (s : State) :
    faultsOnlyIf (s.busy = true ∨ e = .host ∧ hostRaces s) (e = .host ∧ hostIllegal s) (eventTurn e s) := by
  cases e with
  | host => exact faultsOnlyIf_mono (hostTurn_faultsOnlyIf s) (fun h => .inr ⟨rfl, h⟩) (fun h => ⟨rfl, h⟩)
  | engine => exact faultsOnlyIf_mono (engineTurn_faultsOnlyIf s) .inl False.elim
  | reset => trivial
  | store a b => exact faultsOnlyIf_mono (storeArrives_faultsOnlyIf a b s) .inl False.elim
  | post a b => exact faultsOnlyIf_mono (postTurn_faultsOnlyIf a b s) .inl False.elim
  | drain => exact faultsOnlyIf_mono (drainTurn_faultsOnlyIf s) .inl False.elim

/-- A step stops only by a race with a running command, or where HOST moves and its turn stops. -/
theorem step_faultsOnlyIf (s : State) :
    faultsOnlyIf (s.busy = true ∨ hostMoves s ∧ hostRaces s) (hostMoves s ∧ hostIllegal s) (step s) := by
  cases hs : s.sched with
  | nil =>
    cases hb : s.busy with
    | true =>
      rw [step_unscheduled_busy hs hb]
      exact faultsOnlyIf_mono (engineTurn_faultsOnlyIf s) (fun _ => .inl rfl) False.elim
    | false =>
      rw [step_unscheduled_idle hs hb]
      have hmoves : hostMoves s := .inr ⟨hs, hb⟩
      exact faultsOnlyIf_mono (hostTurn_faultsOnlyIf s) (fun h => .inr ⟨hmoves, h⟩) (fun h => ⟨hmoves, h⟩)
  | cons e rest =>
    have hmoves (he : e = .host) : hostMoves s := .inl (by rw [hs, he]; rfl)
    rw [step_scheduled hs]
    exact faultsOnlyIf_mono (eventTurn_faultsOnlyIf e (s.setSched rest)) (Or.imp_right (And.imp_left hmoves))
      (And.imp_left hmoves)

/-- Settles O55: the bound on the step, read at a fault and at a refusal. -/
theorem stopsOnlyByModelFaults : Obligations.StopsOnlyByModelFaults := by
  refine ⟨fun s f h => ?_, fun s r h => ?_⟩
  · have hstep := step_faultsOnlyIf s
    rw [h] at hstep
    exact faultsOnlyIf_fault hstep
  · have hstep := step_faultsOnlyIf s
    rwa [h] at hstep

/-- Where HOST moves the step is HOST's turn, on the state that its schedule leaves. -/
theorem step_of_hostMoves {s : State} (h : hostMoves s) : ∃ es, step s = hostTurn (s.setSched es) := by
  rcases h with h | ⟨hs, hb⟩
  · obtain ⟨rest, hs⟩ := List.head?_eq_some_iff.mp h
    exact ⟨rest, step_scheduled hs⟩
  · have hsame : s.setSched [] = s := by rw [← hs]; rfl
    exact ⟨[], by rw [hsame, step_unscheduled_idle hs hb]⟩

/-- A descriptor that is not one of the eight is rejected, whatever the write data (R55, R94). -/
theorem decodeAccess_not_admitted {t : Desc} (w : Word) (h : t ∉ admittedDescs) :
    ∃ e, decodeAccess t w = .error e := by
  obtain ⟨-, -, -, -, -, -, -, -, hreject⟩ := descriptorTable t w
  exact hreject h

/-- Settles O43: HOST's turn at a descriptor that the decoder rejects. -/
theorem illegalTransactionIsBusError : Obligations.IllegalTransactionIsBusError := by
  intro s t w dst hmoves hf ht
  obtain ⟨es, hstep⟩ := step_of_hostMoves hmoves
  obtain ⟨e, hd⟩ := decodeAccess_not_admitted w ht
  rw [hstep]
  exact hostTurn_illegal (s := s.setSched es) (r := .access t w) hf hd

end Sys2Proof.Machine
end

section
/-!
PROOFS. The host transactions (R87 to R93): what each returns, and the effect it has.
-/
namespace Sys2Proof.Machine

/-- A CMD write that completes has responded `okay` (R87). -/
theorem hostCommand_response {f : State → Result} {s t : State} (h : hostCommand f s = .next t) :
    t.response = some .okay := by
  rcases hostCommand_next h with ⟨-, rfl⟩ | ⟨-, u, -, rfl⟩ <;> rfl

/-- RD.CRC with BUSY = 1 returns a free value and counts the draw (R88). -/
theorem exec_rdCrc_busy {s : State} (hb : s.busy = true) :
    exec .rdCrc s = .next (s.countDraw.respond (.data ((Config.freeCrcRead s.draws).setWidth 32))) := by
  simp only [exec, execRdCrc, hb, if_true, hostRead]

/-- RD.CRC returns a zero-extended 16-bit value, in every state (R88). -/
theorem exec_rdCrc_data (s : State) :
    ∃ (t : State) (c : Half), exec .rdCrc s = .next t ∧ t.response = some (.data (c.setWidth 32)) := by
  cases hb : s.busy with
  | true => exact ⟨_, Config.freeCrcRead s.draws, exec_rdCrc_busy hb, rfl⟩
  | false => exact ⟨_, s.crc, exec_rdCrc_idle hb, rfl⟩

/-- The high half of a zero-extended 16-bit value is 0. -/
theorem extractLsb'_high_setWidth (c : Half) : (c.setWidth 32 : Word).extractLsb' 16 16 = 0#16 := by
  ext i hi
  simp

/-- Settles O36: BUSY decides which value is read. -/
theorem rdCrcReturnsCrc : Obligations.RdCrcReturnsCrc := by
  refine ⟨fun s hb => exec_rdCrc_idle hb, fun s hb => exec_rdCrc_busy hb, fun s t h => ?_, exec_rdCrc_idle rfl⟩
  obtain ⟨u, c, hu, hresponse⟩ := exec_rdCrc_data s
  obtain rfl : u = t := Host.Outcome.next.inj (hu.symm.trans h)
  exact ⟨_, hresponse, extractLsb'_high_setWidth c⟩

/-- BUF right after WR.ADDR starts at the address written (R79, R89). -/
theorem execAll_wrAddr_buf {w : Word} {n : Half} {s : State} (hb : s.busy = false) (h : s.storeOnWay w n = false) :
    ∃ t, execAll [.wrAddr w, .buf n] s = .next t ∧ t.ptr = w := by
  let u := (s.loadAddr w).respond .okay
  have haddr : exec (.wrAddr w) s = .next u := rfl
  have hbuf : exec (.buf n) u = .next ((u.startWindow n).respond .okay) := execBuf_clear hb h
  exact ⟨_, by rw [execAll_cons haddr, execAll_cons hbuf]; rfl, rfl⟩

/-- Settles O37: LSF after WR.ADDR is BUF of 28 bytes there. -/
theorem addrReadWrite : Obligations.AddrReadWrite :=
  ⟨fun _ => rfl, fun _ _ => rfl,
    fun _ _ hb => ⟨fun h => execAll_wrAddr_buf (n := 28) hb h, fun _ h => execAll_wrAddr_buf hb h⟩⟩

/-- A flag put at bit `k` of a word is that bit, and every other bit is 0. -/
theorem getLsbD_flag (b : Bool) {k : Nat} (hk : k < 32) (i : Nat) :
    ((BitVec.ofBool b).setWidth 32 <<< k : Word).getLsbD i = (decide (i = k) && b) := by
  rcases Nat.lt_trichotomy i k with h | rfl | h
  · simp [h, Nat.ne_of_lt h]
  · simp [hk]
  · have hsub : i - k ≠ 0 := Nat.sub_ne_zero_of_lt h
    simp [Nat.ne_of_gt h, hsub]

/-- The STATUS word, bit by bit (R90). -/
theorem getLsbD_statusWord (s : State) (i : Nat) :
    s.statusWord.getLsbD i =
      (decide (i = 3) && s.errMem || decide (i = 2) && s.errBusy || decide (i = 1) && s.errCmd ||
        decide (i = 0) && s.busy) := by
  have hbusy := getLsbD_flag s.busy (k := 0) (by decide) i
  rw [BitVec.shiftLeft_zero] at hbusy
  simp only [State.statusWord, BitVec.getLsbD_or, hbusy]
  rw [getLsbD_flag _ (by decide), getLsbD_flag _ (by decide), getLsbD_flag _ (by decide)]

/-- Settles O38: the word read is the STATUS word. -/
theorem rdStatusReturnsStatus : Obligations.RdStatusReturnsStatus := by
  intro s
  refine ⟨s.statusWord, rfl, ?_, ?_, ?_, ?_, fun i hi => ?_⟩ <;> rw [getLsbD_statusWord]
  · rw [Bool.eq_iff_iff]
    simp [State.busy_iff]
  · simp
  · simp
  · simp
  · simp [show i ≠ 3 by omega, show i ≠ 2 by omega, show i ≠ 1 by omega, show i ≠ 0 by omega]

/-- Settles O39: a legal word is its command, an illegal one records ERR_CMD. -/
theorem wrCmdDispatches : Obligations.WrCmdDispatches :=
  fun _ s hb => ⟨fun _ h => exec_wrCmd_of_decode h s, fun _ h => exec_wrCmd_illegal h hb⟩

/-- Words that agree under the mask 0xE agree in each error's bit (R92, R97). -/
theorem getLsbD_errorCode_of_and_mask {w v : Word} (h : w &&& 0x0000000E = v &&& 0x0000000E) (e : ErrorCode) :
    w.getLsbD (errorCode e) = v.getLsbD (errorCode e) := by
  have hbit := congrArg (fun x : Word => x.getLsbD (errorCode e)) h
  simp only [BitVec.getLsbD_and] at hbit
  cases e <;> simpa [errorCode] using hbit

/-- Clearing errors reads the word's error bits alone (R92). -/
theorem clearErrors_congr {w v : Word} (h : ∀ e, w.getLsbD (errorCode e) = v.getLsbD (errorCode e)) (s : State) :
    s.clearErrors w = s.clearErrors v := by
  simp only [State.clearErrors, stickyAfter, h]

/-- Writing 0 to STATUS clears nothing (R92). -/
theorem clearErrors_zero (s : State) : s.clearErrors 0 = s := by
  simp [State.clearErrors, stickyAfter]

/-- WR.STATUS is the clearing of errors and `okay` (R92). -/
theorem exec_wrStatus (w : Word) (s : State) : exec (.wrStatus w) s = .next ((s.clearErrors w).respond .okay) := rfl

/-- Settles O41: the clearing of errors, and the words it cannot tell apart. -/
theorem wrStatusClearsWrittenOnes : Obligations.WrStatusClearsWrittenOnes := by
  refine ⟨exec_wrStatus, fun w v s h => ?_, fun s => ?_⟩
  · rw [exec_wrStatus, exec_wrStatus, clearErrors_congr (getLsbD_errorCode_of_and_mask h)]
  · rw [exec_wrStatus, clearErrors_zero]
    rfl

/-- Settles O42: each is its response alone. -/
theorem wrCrcAndRdCmdDoNothing : Obligations.WrCrcAndRdCmdDoNothing :=
  ⟨fun _ _ => rfl, fun _ => rfl⟩

/-- An instruction that completes has responded: a read with data, everything else `okay` (R87). -/
theorem exec_response {i : Instr} {s t : State} (h : exec i s = .next t) :
    if i = .rdCrc ∨ i = .rdAddr ∨ i = .rdCmd ∨ i = .rdStatus then ∃ d, t.response = some (.data d)
    else t.response = some .okay := by
  cases i with
  | init => exact hostCommand_response h
  | feed d => exact hostCommand_response h
  | buf n => exact hostCommand_response h
  | lsf => exact hostCommand_response h
  | wrCmd w => exact hostCommand_response h
  | rdCrc =>
    obtain ⟨u, c, hu, hresponse⟩ := exec_rdCrc_data s
    obtain rfl : u = t := Host.Outcome.next.inj (hu.symm.trans h)
    exact ⟨_, hresponse⟩
  | wrCrc w => cases h; rfl
  | rdAddr => cases h; exact ⟨_, rfl⟩
  | wrAddr w => cases h; rfl
  | rdCmd => cases h; exact ⟨_, rfl⟩
  | rdStatus => cases h; exact ⟨_, rfl⟩
  | wrStatus w => cases h; rfl

/-- Settles O44: the only stop of an instruction is the excluded race, and what completes has responded. -/
theorem everyTransactionResponds : Obligations.EveryTransactionResponds := by
  intro i s hclear
  have hno : ¬ (s.busy = false ∧ ∃ n, windowOf i = some n ∧ s.storeOnWay s.addr n = true) := by
    rintro ⟨hb, n, hn, hstore⟩
    simp [hclear n hn hb] at hstore
  obtain ⟨t, ht⟩ := faultsOnlyIf_next (exec_faultsOnlyIf i s) hno id
  exact ⟨t, ht, exec_response ht⟩

end Sys2Proof.Machine
end

section
/-!
PROOFS. The mark of a faulted run (R100, R123): every turn but ENGINE's leaves it as it is, and ENGINE's sets it only
where a memory error ends the command.
-/
namespace Sys2Proof.Machine

/-- HOST's turn leaves the mark as it is. -/
theorem hostTurn_memFaulted {s t : State} (h : hostTurn s = .next t) : t.memFaulted = s.memFaulted := by
  rcases hostTurn_next h with ⟨-, rfl⟩ | ⟨v, mask, target, -, rfl⟩ | ⟨r, dst, i, u, -, -, hu, rfl⟩
  · rfl
  · rfl
  · obtain ⟨-, -, -, -, -, -, -, -, hmark⟩ := exec_environment hu
    exact (u.bindName_memFaulted dst).trans hmark

/-- ENGINE's turn leaves the mark as it is, or the memory has answered `err` and it ends the command (R84, R100). -/
theorem engineTurn_memFaulted {s t : State} (h : engineTurn s = .next t) :
    t.memFaulted = s.memFaulted ∨
      (s.busy = true ∧ s.memRead s.ptr = .err ∧ t.memFaulted = true ∧ t.errMem = true ∧ t.busy = false) := by
  rcases engineTurn_next h with ⟨rfl, -⟩ | ⟨hb, -, hr, rfl⟩ | ⟨b, -, -, -, rfl⟩
  · exact .inl rfl
  · exact .inr ⟨hb, hr, rfl, rfl, rfl⟩
  · exact .inl rfl

/-- An event other than ENGINE's turn leaves the mark as it is; a reset does too (log 9). -/
theorem eventTurn_memFaulted {e : Event} {s t : State} (h : eventTurn e s = .next t) (hengine : e ≠ .engine) :
    t.memFaulted = s.memFaulted := by
  cases e with
  | host => exact hostTurn_memFaulted h
  | engine => exact absurd rfl hengine
  | reset => cases h; rfl
  | store a b =>
    obtain ⟨-, rfl⟩ := storeArrives_next h
    rfl
  | post a b =>
    obtain ⟨-, rfl⟩ := postTurn_next h
    rfl
  | drain => rcases drainTurn_next h with ⟨-, rfl⟩ | ⟨a, b, p, -, -, rfl⟩ <;> rfl

/-- A step leaves the mark as it is, or it is ENGINE's at which a memory error ends the command. -/
theorem step_memFaulted {s t : State} (h : step s = .next t) :
    t.memFaulted = s.memFaulted ∨
      (engineMoves s ∧ s.memRead s.ptr = .err ∧ t.memFaulted = true ∧ t.errMem = true ∧ t.busy = false) := by
  rcases step_next h with ⟨hs, h⟩ | ⟨e, rest, hs, h⟩
  · simp only [idleTurn] at h
    split at h
    · exact (engineTurn_memFaulted h).imp_right fun ⟨hb, herr⟩ => ⟨⟨.inr hs, hb⟩, herr⟩
    · exact .inl (hostTurn_memFaulted h)
  · by_cases hengine : e = .engine
    · subst hengine
      have hsched : s.sched.head? = some .engine := by rw [hs]; rfl
      exact (engineTurn_memFaulted (s := s.setSched rest) h).imp_right fun ⟨hb, herr⟩ => ⟨⟨.inl hsched, hb⟩, herr⟩
    · exact .inl (eventTurn_memFaulted (s := s.setSched rest) h hengine)

/-- Settles O56: a step that changes the mark sets it, at a memory error. -/
theorem faultMarkIsKept : Obligations.FaultMarkIsKept := by
  intro s t h
  rcases step_memFaulted h with hsame | ⟨hmoves, hr, hset, herr, hidle⟩
  · exact ⟨hsame.trans, fun hs ht => by simp [hsame, hs] at ht⟩
  · exact ⟨fun _ => hset, fun _ _ => ⟨hmoves, hr, herr, hidle⟩⟩

end Sys2Proof.Machine
end

section
/-!
PROOFS. No host store is on its way to the running command's window (R118, R119): a command starts only clear of the
stores on their way, a store is posted only clear of the running command, and no other turn adds a store or moves the
window while BUSY = 1.
-/
namespace Sys2Proof.Machine

/-- With no command running every store is clear of it. -/
theorem storesClear_idle {s : State} (hb : s.busy = false) : storesClear s := fun p _ => by
  rw [State.inWindow, hb, Bool.false_and]

/-- Binding a name moves no window and adds no store. -/
theorem bindName_storesClear {s : State} (dst : Option Nat) (hs : storesClear s) : storesClear (s.bindName dst) := by
  simpa [storesClear, State.inWindow, State.busy] using hs

/-- A window that no store is on its way to starts clear (R119). -/
theorem startWindow_storesClear {s : State} {n : Half} (h : s.storeOnWay s.addr n = false) :
    storesClear (s.startWindow n) := by
  intro p hp
  have hout : isWindowByte s.addr n p.1 = false := Bool.eq_false_of_not_eq_true (List.any_eq_false.mp h p hp)
  rw [State.inWindow, State.startWindow_winBase, State.startWindow_winLen, hout, Bool.and_false]

/-- The engine's byte step leaves the window where it is. -/
theorem foldByte_storesClear {s : State} (b : Byte) (hb : s.busy = true) (hs : storesClear s) :
    storesClear (s.foldByte b) := by
  intro p hp
  have hout : isWindowByte s.winBase s.winLen p.1 = false := by
    have hin : s.inWindow p.1 = false := hs p hp
    rwa [State.inWindow, hb, Bool.true_and] at hin
  rw [State.inWindow, State.foldByte_winBase, State.foldByte_winLen, hout, Bool.and_false]

/-- A store posted outside the running command's window leaves it clear (R118). -/
theorem postStore_storesClear {s : State} {a : Word} (b : Byte) (ha : s.inWindow a = false) (hs : storesClear s) :
    storesClear (s.postStore a b) := by
  intro p hp
  rcases List.mem_append.mp hp with hold | hnew
  · exact hs p hold
  · obtain rfl := List.mem_singleton.mp hnew
    exact ha

/-- Every instruction keeps the stores clear: the only window it starts is one it has tested. -/
theorem exec_storesClear {i : Instr} {s t : State} (hs : storesClear s) (h : exec i s = .next t) :
    storesClear t := by
  obtain ⟨u, r, rfl, hu⟩ := exec_next h
  suffices hclear : storesClear u from hclear
  rcases hu with rfl | ⟨-, -, rfl⟩ |
    ⟨-, -, ⟨w, -, rfl⟩ | ⟨c, rfl⟩ | ⟨n, -, hway, rfl⟩⟩ | ⟨w, -, rfl⟩ | ⟨w, -, rfl⟩ | ⟨-, rfl⟩
  · exact hs
  · exact hs
  · exact hs
  · exact hs
  · exact startWindow_storesClear hway
  · exact hs
  · exact hs
  · exact hs

/-- HOST's turn keeps the stores clear. -/
theorem hostTurn_storesClear {s t : State} (hs : storesClear s) (h : hostTurn s = .next t) : storesClear t := by
  rcases hostTurn_next h with ⟨-, rfl⟩ | ⟨v, mask, target, -, rfl⟩ | ⟨r, dst, i, u, -, -, hu, rfl⟩
  · exact hs
  · exact hs
  · exact bindName_storesClear dst (exec_storesClear (s := s.setHostPc (s.hostPc + 1)) hs hu)

/-- ENGINE's turn keeps the stores clear. -/
theorem engineTurn_storesClear {s t : State} (hs : storesClear s) (h : engineTurn s = .next t) : storesClear t := by
  rcases engineTurn_next h with ⟨rfl, -⟩ | ⟨-, -, -, rfl⟩ | ⟨b, hb, -, -, rfl⟩
  · exact hs
  · exact storesClear_idle rfl
  · exact foldByte_storesClear (s := s.logRead s.ptr) b hb hs

/-- A store that reaches the memory leaves the rest clear. -/
theorem drainTurn_storesClear {s t : State} (hs : storesClear s) (h : drainTurn s = .next t) : storesClear t := by
  rcases drainTurn_next h with ⟨-, rfl⟩ | ⟨a, b, rest, hp, -, rfl⟩
  · exact hs
  · intro p hmem
    exact hs p (by rw [hp]; exact List.mem_cons_of_mem _ hmem)

/-- Settles O60, by the turn the step takes. -/
theorem storesStayClear : Obligations.StoresStayClear := by
  refine ⟨storesClear_idle rfl, fun s t hs h => ?_⟩
  obtain ⟨u, hu, hturn⟩ := step_turns h
  have hclear : storesClear u := by
    rcases hu with rfl | ⟨e, rest, -, rfl⟩ <;> exact hs
  rcases hturn with h | h | rfl | ⟨a, b, h⟩ | ⟨a, b, h⟩ | h
  · exact engineTurn_storesClear hclear h
  · exact hostTurn_storesClear hclear h
  · exact storesClear_idle rfl
  · obtain ⟨-, rfl⟩ := storeArrives_next h
    exact hclear
  · obtain ⟨ha, rfl⟩ := postTurn_next h
    exact postStore_storesClear b ha hclear
  · exact drainTurn_storesClear hclear h

end Sys2Proof.Machine
end

section
/-!
PROOFS. The race of a buffer command, and of ENGINE's read, with a host store on its way (R118, R119).
-/
namespace Sys2Proof.Machine

/-- A store on its way to a byte of a window is on its way to the window. -/
theorem storeOnWay_of_storePending {s : State} {base : Word} {n : Half} {k : Nat} (hk : k < n.toNat)
    (h : s.storePending (windowAddr base k) = true) : s.storeOnWay base n = true :=
  Bool.eq_true_of_not_eq_false fun hclear => by simp [storeOnWay_false_iff.mp hclear k hk] at h

/-- A buffer command's effect is the race where a store is on its way to its window (R119). -/
theorem commandEffect_race {c : Except CommandError Command} {s : State} {n : Half}
    (hc : c.toOption.bind commandWindow = some n) (h : s.storeOnWay s.addr n = true) :
    commandEffect c s = .fault .bufferRace := by
  match c, hc with
  | .ok (.buf _), rfl => exact startBuffer_race h
  | .ok .lsf, rfl => exact startBuffer_race h

/-- With BUSY = 0 a CMD write is the race where its command's effect is. -/
theorem hostCommand_race {f : State → Result} {s : State} (hb : s.busy = false) (h : f s = .fault .bufferRace) :
    hostCommand f s = .fault .bufferRace := by
  rw [hostCommand_idle f hb, h]
  rfl

/-- An instruction that presents a buffer command with BUSY = 0 is the race where a store is on its way to its window,
however its word is written (R119). -/
theorem exec_race {i : Instr} {s : State} {n : Half} (hi : windowOf i = some n) (hb : s.busy = false)
    (h : s.storeOnWay s.addr n = true) : exec i s = .fault .bufferRace := by
  cases i with
  | buf m => exact hostCommand_race hb (commandEffect_race (c := .ok (.buf m)) hi h)
  | lsf => exact hostCommand_race hb (commandEffect_race (c := .ok .lsf) hi h)
  | wrCmd w => exact hostCommand_race hb (commandEffect_race hi h)
  | _ => cases hi

/-- ENGINE's turn is the race where its read is answered and a store is on its way to that byte (log 3). -/
theorem engineTurn_race {s : State} (hb : s.busy = true) (hr : s.memRead s.ptr ≠ .never)
    (hp : s.storePending s.ptr = true) : engineTurn s = .fault .bufferRace := by
  simp only [engineTurn, hb, if_true]
  cases h : s.memRead s.ptr with
  | never => exact absurd h hr
  | err => simp only [engineRead, hp, if_true]
  | ok b => simp only [engineRead, hp, if_true]

/-- Settles O51: the CMD write's race, and the engine event's. -/
theorem pendingStoreRaces : Obligations.PendingStoreRaces := by
  refine ⟨fun i s n k hi hb hk hp => exec_race hi hb (storeOnWay_of_storePending hk hp), fun s rest hs hb hr hp => ?_⟩
  rw [step_scheduled hs]
  exact engineTurn_race (s := s.setSched rest) hb hr hp

end Sys2Proof.Machine
end

section
/-!
PROOFS. The reset event, and the events that are no concern of the block's (R111).
-/
namespace Sys2Proof.Machine

/-- A store, posted or reaching the memory, leaves the block's state as it was. -/
theorem eventTurn_blockState {e : Event} {s t : State} (h : eventTurn e s = .next t) (hreset : e ≠ .reset)
    (hhost : e ≠ .host) (hengine : e ≠ .engine) : blockState t = blockState s := by
  cases e with
  | host => exact absurd rfl hhost
  | engine => exact absurd rfl hengine
  | reset => exact absurd rfl hreset
  | store a b =>
    obtain ⟨-, rfl⟩ := storeArrives_next h
    rfl
  | post a b =>
    obtain ⟨-, rfl⟩ := postTurn_next h
    rfl
  | drain => rcases drainTurn_next h with ⟨-, rfl⟩ | ⟨a, b, p, -, -, rfl⟩ <;> rfl

/-- Settles O2: the reset event's turn is one equation, and the stores' turns leave the block alone. -/
theorem resetEventAndNoOther : Obligations.ResetEventAndNoOther := by
  refine ⟨fun s rest hs => step_scheduled hs, fun s t e rest hs h hreset hhost hengine => ?_⟩
  rw [step_scheduled hs] at h
  exact eventTurn_blockState (s := s.setSched rest) h hreset hhost hengine

end Sys2Proof.Machine
end

section
/-!
PROOFS. A read that is never answered (R122): the step leaves the state as it is, and so does every run.
-/
namespace Sys2Proof.Machine

/-- ENGINE waits for a read that is never answered (R122, log 2). -/
theorem engineTurn_never {s : State} (hb : s.busy = true) (hr : s.memRead s.ptr = .never) :
    engineTurn s = .next s := by
  simp only [engineTurn, hb, if_true, hr, engineRead]

/-- A state that a step leaves as it is stays so for ever. -/
theorem run_fixed {s : State} (h : step s = .next s) (k : Nat) : core.run k s = .next s := by
  induction k with
  | zero => exact run_zero s
  | succ k ih => exact (run_succ k h).trans ih

/-- Settles O28: ENGINE takes every turn and waits in each. -/
theorem unansweredReadHangs : Obligations.UnansweredReadHangs :=
  fun _ k hs hb hr => run_fixed ((step_unscheduled_busy hs hb).trans (engineTurn_never hb hr)) k

end Sys2Proof.Machine
end
